-- ==== Sys2Proof/Word.lean ====
section
/-! DEFINITION. The words of the block: bytes, 32-bit and 64-bit words, the 256-bit bundle and the byte string.
Control fields of the register tables are kept as `Nat`, cut to their width when written; scalar registers and lanes are bit vectors. -/
namespace Sys2Proof

/-- One byte of memory. -/
abbrev Byte := BitVec 8

/-- A 32-bit word: a lane of the vector unit, an FP32 value. -/
abbrev Word32 := BitVec 32

/-- A 64-bit word: a scalar register, a parameter register, a command word. -/
abbrev Word64 := BitVec 64

/-- A bundle of the instruction store (R114, spec/05_cores_and_bundles.md). -/
abbrev Bundle := BitVec 256

/-- A string of bytes, the first at the lowest address. -/
abbrev Bytes := List Byte

/-- The agents that reach the control space (R12, R369): the host die and the firmware on the management cores. -/
inductive Requester where
  | host
  | fw
  deriving DecidableEq, Repr

/-- The two outcomes of a check that a command's sender reports about something outside the block or inside an engine the spec gives no arithmetic for. -/
inductive Verdict where
  | pass
  | fail
  deriving DecidableEq, Repr

end Sys2Proof
end

