-- ==== Sys2Proof/Records.lean ====
section
/-! DEFINITION. The records that commands carry: the 64-byte command of R82 (spec/04_command_lists.md) and the frame of R287 (spec/11_vyter_links.md). -/
namespace Sys2Proof

/-- A 64-byte command (R82). Every field is a number of the width the rule gives it. -/
structure Cmd where
  opcode : Nat
  engine : Nat
  part : Nat
  flags : Nat
  tag : Nat
  issue : Nat
  deadline : Nat
  psel : Nat
  p0 : Nat
  p1 : Nat
  p2 : Nat
  p3 : Nat
  p4 : Nat
  deriving DecidableEq, Repr

/-- Every field of the command is within the width R82 gives it. -/
def Cmd.fits (c : Cmd) : Bool :=
  c.opcode < 2 ^ 8 && c.engine < 2 ^ 4 && c.part < 2 ^ 4 && c.flags < 2 ^ 16 && c.tag < 2 ^ 32 && c.issue < 2 ^ 48 &&
  c.deadline < 2 ^ 48 && c.psel < 2 ^ 32 && c.p0 < 2 ^ 64 && c.p1 < 2 ^ 64 && c.p2 < 2 ^ 64 && c.p3 < 2 ^ 64 && c.p4 < 2 ^ 64

/-- A frame of a Vyter link (R287): the header's fields, the data as sent, and the 16-byte tag. -/
structure Frame where
  typ : Nat
  env : Nat
  srcBlock : Nat
  srcPart : Nat
  dstBlock : Nat
  dstPart : Nat
  hidx : Nat
  last : Bool
  bad : Bool
  keyslot : Nat
  route : Nat
  ret : Nat
  addr : Nat
  xfer : Nat
  len : Nat
  rid : Nat
  status : Nat
  fcnt : Nat
  data : Bytes
  tag : Bytes
  deriving DecidableEq, Repr

/-- Every header field is within the width R287 gives it, and the data is LEN units of 32 bytes, at most 64 of them. -/
def Frame.fits (f : Frame) : Bool :=
  f.typ < 256 && f.env < 256 && f.srcBlock < 1024 && f.srcPart < 16 && f.dstBlock < 1024 && f.dstPart < 16 && f.hidx < 16 &&
  f.keyslot < 256 && f.route < 2 ^ 64 && f.ret < 2 ^ 64 && f.addr < 2 ^ 48 && f.xfer < 65536 && f.len < 65 && f.rid < 2 ^ 32 &&
  f.status < 256 && f.fcnt < 2 ^ 64 && (f.typ == 0x12 || f.data.length == 32 * f.len) && f.tag.length == 16

/-- How a port's training ends (R286): up, with what it learnt of the neighbour; a fibre longer than 10 m; a failure. -/
inductive Training where
  | up (nblock nport fibre : Nat)
  | tooLong
  | fail
  deriving DecidableEq, Repr

/-- A part that R342 lists: the checkers of a stack, of a die's cache, of a core, and the control cluster's own. -/
inductive CheckerPart where
  | stack (n : Nat)
  | quad (n q : Nat)
  | cache (d : Nat)
  | core (n : Nat)
  | hub
  deriving DecidableEq, Repr

/-- What the far-tier port finds on one of its links (R319, R320): an expander; whether it is a Type 3 single logical device, holds volatile memory only, is capable of
CXL IDE, and takes one committed HDM range; the lanes it trains, whether it runs 64 GT/s, its capacity in bytes. -/
structure FarExpander where
  present : Bool
  single : Bool
  volatileOnly : Bool
  ide : Bool
  oneRange : Bool
  lanes : Nat
  fast : Bool
  bytes : Nat
  deriving DecidableEq, Repr

/-- The expander meets every condition (R320). -/
def FarExpander.accepted (x : FarExpander) : Bool := x.single && x.volatileOnly && x.ide && x.oneRange

/-- What asserts cold reset (R398): a low rail-good input (0 core A, 1 core B, 2 SRAM, 3 always-on, 4 stack, 5 I/O), absence of the reference clock, a low pulse on MRST_N of so many ns. -/
inductive ColdCause where
  | railLow (r : Nat)
  | clockAbsent
  | mrst (ns : Nat)
  deriving DecidableEq, Repr

/-- Where an SPDM message travels (R311, R363): the host's DOE mailbox, the sideband mailbox of Twilight, a link port. -/
inductive Transport where
  | doe
  | sideband
  | link (n : Nat)
  deriving DecidableEq, Repr

/-- A KEYAGREE request (R366): purpose, partition, and for links the slot, peer block and peer partition; the requester's X25519 value, the tenant key and its signature. -/
structure KeyReq where
  purpose : Nat
  part : Nat
  slot : Nat
  peer : Nat
  ppart : Nat
  pub : Bytes
  tkey : Bytes
  sig : Bytes
  deriving DecidableEq, Repr

end Sys2Proof
end

