-- ==== Sys2Proof/Syntax.lean ====
section
/-! DEFINITION. The commands of the block: one constructor per row of spec/opcode_table.json, with the row's operands.
Units are named by the numbers the spec gives them: p partition, q queue, n core, stack or port as the row says, b bank. `who` is the agent that makes a register access. -/
namespace Sys2Proof

/-- The commands, in the order of the table: those with operands first, then those without. -/
inductive Instr where
  /-- REGISTER_WRITE (R12). A control-space write to a register that has no row of its own sets the field, subject to access type, lock, lockdown and width checks. -/
  | registerWrite (who : Requester) (off width v : Nat)
  /-- REGISTER_READ_CLEAR (R5). A read of an RC field returns its value and then clears it. -/
  | registerReadClear (who : Requester) (off width : Nat)
  /-- GLOBAL_BLOCK_LOCK (R13). Writing 1 to GLOBAL_BLOCK.LOCK locks GLOBAL_BLOCK.NUM until the next reset. -/
  | globalBlockLock (who : Requester)
  /-- TIME_NOW_LOW_READ (R29). A 32-bit read of the low half of TIME_NOW latches the high half for the next high-half read from the same requester. -/
  | timeNowLowRead (who : Requester)
  /-- TIME_CTL_LOAD (R27). Writing TIME_CTL.LOAD requests that TIME_SET be loaded into the time base at the next tick boundary. -/
  | timeCtlLoad (who : Requester)
  /-- TIME_ROLE_WRITE (R26). A write of TIME_CTL.ROLE changes the synchronisation role and moves the state to LOCKED, FREE or HOLDOVER as the rule gives. -/
  | timeRoleWrite (who : Requester) (v : Nat)
  /-- STEP_DEADLINE_MISS (R274). At the first tick at which an open step's deadline has passed, the monitor counts a miss, raises MISSEV and fires miss actions. -/
  | stepDeadlineMiss (p : Nat)
  /-- COMMAND_COMPLETION (R101). When a command's operation ends, the block writes its completion record, increments QDONE and, with EVENT set, its event counter, and evaluates checkpoints. -/
  | commandCompletion (p q : Nat)
  /-- NOP (R91). NOP does nothing beyond its waits, event and completion record. -/
  | nop (p q : Nat) (c : Cmd)
  /-- KERNEL (R139). KERNEL starts every core of the group at a bundle with s0–s2 set from its parameters. -/
  | kernel (p q : Nat) (c : Cmd)
  /-- STACK (R201). STACK checks its sequence descriptor and items and runs the work items on the banks of its stack. -/
  | stack (p q : Nat) (c : Cmd)
  /-- COPY (R193). COPY moves a tensor between two descriptors, changing layout and writing pads, counting progress in groups. -/
  | copy (p q : Nat) (c : Cmd)
  /-- COPY_FILL (R193). COPY with FILL writes the value of P4 into every valid element of the destination. -/
  | copyFill (p q : Nat) (c : Cmd)
  /-- COPY_AMO (R93). COPY with AMO performs one atomic on a local or neighbour address and writes the replaced value to RESULT. -/
  | copyAmo (p q : Nat) (c : Cmd)
  /-- REMOTE_WRITE (R94). REMOTE write sends the local range as WRITE frames on the route to a neighbour and completes when its last frame has left. -/
  | remoteWrite (p q : Nat) (c : Cmd)
  /-- REMOTE_READ (R94). A remote read sends READREQ frames and completes when the last reply has landed at LOCAL. -/
  | remoteRead (p q : Nat) (c : Cmd)
  /-- SEAL (R95). SEAL sends one SEAL frame announcing a transfer's expected count, event and payload. -/
  | seal (p q : Nat) (c : Cmd)
  /-- WAIT (R96). WAIT issues when all five wait conditions are met, or when its deadline passes first. -/
  | wait (p q : Nat) (c : Cmd)
  /-- PATCH (R97). PATCH performs up to two set, add or copy operations on parameter registers at its issue instant. -/
  | patch (p q : Nat) (c : Cmd)
  /-- MARK (R99). MARK writes one MARK trace record carrying P1 and P2 when tracing of that kind is enabled. -/
  | mark (p q : Nat) (c : Cmd)
  /-- JUMP (R98). JUMP sets the next command of its queue, optionally counted, and may advance a register and the queue tick base. -/
  | jump (p q : Nat) (c : Cmd)
  /-- FLUSH (R99). FLUSH writes back and invalidates every shared-cache line of its range. -/
  | flush (p q : Nat) (c : Cmd)
  /-- SAMPLE (R378). SAMPLE converts the selected temperature zones together and completes exactly 40 µs after start. -/
  | sample (p q : Nat) (c : Cmd)
  /-- POWER_START (R376). POWER start starts the selected core, quadrant and port domains, each ready at its lead time. -/
  | powerStart (p q : Nat) (c : Cmd)
  /-- POWER_STOP (R377). POWER stop stops the partition's core domains and votes to stop quadrant and port domains. -/
  | powerStop (p q : Nat) (c : Cmd)
  /-- DOMAIN_READY (R48). A started domain reports ready exactly at the issue instant plus its lead time. -/
  | domainReady (d : Nat)
  /-- BUILD (R265). SEQ BUILD closes any open step, opens a new one, scans the session table into buckets and writes bucket counts. -/
  | build (p q : Nat) (c : Cmd)
  /-- EMIT (R270). SEQ EMIT forms one output record per listed session, updates entries, sends the records and closes the step. -/
  | emit (p q : Nat) (c : Cmd)
  /-- ADMIT (R264). SEQ ADMIT fills a free session entry from an entry image and makes it admitted. -/
  | seqAdmit (p q : Nat) (c : Cmd)
  /-- ACTIVATE (R264). SEQ ACTIVATE makes an admitted or parked session active. -/
  | activate (p q : Nat) (c : Cmd)
  /-- HOLD (R264). SEQ HOLD makes an active session held and clears POOLHELD. -/
  | hold (p q : Nat) (c : Cmd)
  /-- RELEASE (R264). SEQ RELEASE makes a held session active and clears POOLHELD. -/
  | release (p q : Nat) (c : Cmd)
  /-- PARK (R264). SEQ PARK makes an active or held session parked. -/
  | park (p q : Nat) (c : Cmd)
  /-- RETIRE (R264). SEQ RETIRE makes a session retiring. -/
  | retire (p q : Nat) (c : Cmd)
  /-- FREE (R264). SEQ FREE zeroes a retiring, unlisted session entry. -/
  | free (p q : Nat) (c : Cmd)
  /-- PEND (R264). SEQ PEND sets a session's PEND bit. -/
  | pend (p q : Nat) (c : Cmd)
  /-- SHED (R264). SEQ SHED sets a session's shed level. -/
  | shed (p q : Nat) (c : Cmd)
  /-- SETDL (R264). SEQ SETDL sets a session's deadline and priority. -/
  | setdl (p q : Nat) (c : Cmd)
  /-- ALLOCATE (R237). PAGE ALLOCATE pops a page into an empty list entry, or restores a parked page from its far slot. -/
  | pageAllocate (p q : Nat) (c : Cmd)
  /-- PAGE_FREE (R237). PAGE FREE optionally spills a page, forgets it, pushes it to the pool and rewrites the entry. -/
  | pageFree (p q : Nat) (c : Cmd)
  /-- PAGE_FORGET (R237). PAGE FORGET forgets the named page and leaves its entry unchanged. -/
  | pageForget (p q : Nat) (c : Cmd)
  /-- ATTEND_ITEM (R242). An ATTEND work item takes its first bank and begins folding its pages in list order into an online-softmax state. -/
  | attendItem (n : Nat)
  /-- PGEMV_ITEM (R247). A PGEMV work item takes its first bank and begins accumulating plane-weight products over its pages. -/
  | pgemvItem (n : Nat)
  /-- APPEND_ITEM (R248). An APPEND work item writes one token into its current page, popping a fresh page when needed, and writes its append record. -/
  | appendItem (n : Nat)
  /-- ITEM_BANK_TAKE (R210). A running item takes its next page's bank at a boundary and runs its segments of sequence work there. -/
  | itemBankTake (n : Nat)
  /-- RECORD_ARRIVAL (R244). A partial record arriving over the bank chain or stack bus is staged, loaded directly or held at its sender. -/
  | recordArrival (n : Nat)
  /-- BANK_SERVICE_PERIOD (R212). At the start of a window or idle period the bank starts waiting ordinary accesses in class order while they fit. -/
  | bankServicePeriod (n b : Nat)
  /-- BANK_YIELD_POINT (R211). At the end of a segment the bank yields to a window, applying throttle changes and stopping reset items. -/
  | bankYieldPoint (n b : Nat)
  /-- REFRESH_SLOT (R214). At each hot-calendar slot instant the quadrant's banks become unavailable for 112 engine cycles, ending any running segment. -/
  | refreshSlot (n q : Nat)
  /-- REFRESH_CALENDAR_CHANGE (R45). A stack's DRAM temperature flag crossing 85 °C switches it between hot and cool calendars. -/
  | refreshCalendarChange (n : Nat) (hot : Bool)
  /-- STACK_THROTTLE_ONSET (R224). A stack's DRAM reaching its throttle level sets the throttle flag, lengthens windows, records FK_THROTTLE and takes commands out of the envelope. -/
  | stackThrottleOnset (n : Nat)
  /-- STACK_THROTTLE_CLEAR (R223). A stack's DRAM falling 3 °C below its level clears the throttle flag. -/
  | stackThrottleClear (n : Nat)
  /-- STACK_FORGET_GO (R221). Writing STACK[n].FORGET.GO starts a forget of a granule range, or refuses it. -/
  | stackForgetGo (who : Requester) (n base len : Nat)
  /-- FORGET_DONE (R221). A forget clears the last map bits of its range and sets FORGETST.DONE. -/
  | forgetDone (n : Nat)
  /-- POOL_ADD_GO (R235). Writing ADD.GO checks a page range, then forgets it and starts pushing its pages into the pool. -/
  | poolAddGo (who : Requester) (p n first count : Nat)
  /-- POOL_ADD_DONE (R235). The last push of an ADD clears ADDST.BUSY and sets ADDST.DONE. -/
  | poolAddDone (p n : Nat)
  /-- SC_ADD (R124). sc.add writes sA + sB to sD. -/
  | scAdd (n : Nat)
  /-- SC_ADDI (R124). sc.addi writes sA + IMM to sD. -/
  | scAddi (n : Nat)
  /-- SC_SUB (R124). sc.sub writes sA − sB to sD. -/
  | scSub (n : Nat)
  /-- SC_MUL (R124). sc.mul writes the low 64 bits of sA × sB to sD. -/
  | scMul (n : Nat)
  /-- SC_AND (R124). sc.and writes the bitwise AND of sA and sB to sD. -/
  | scAnd (n : Nat)
  /-- SC_OR (R124). sc.or writes the bitwise OR of sA and sB to sD. -/
  | scOr (n : Nat)
  /-- SC_XOR (R124). sc.xor writes the bitwise XOR of sA and sB to sD. -/
  | scXor (n : Nat)
  /-- SC_SHL (R124). sc.shl shifts sA left by sB mod 64. -/
  | scShl (n : Nat)
  /-- SC_SHR (R124). sc.shr shifts sA right logically by sB mod 64. -/
  | scShr (n : Nat)
  /-- SC_SAR (R124). sc.sar shifts sA right arithmetically by sB mod 64. -/
  | scSar (n : Nat)
  /-- SC_LI (R124). sc.li loads the sign-extended immediate into sD. -/
  | scLi (n : Nat)
  /-- SC_LDC (R124). sc.ldc loads a 64-bit word from the core store into sD. -/
  | scLdc (n : Nat)
  /-- SC_CMPLT (R124). sc.cmplt writes 1 to sD if sA < sB signed. -/
  | scCmplt (n : Nat)
  /-- SC_CMPEQ (R124). sc.cmpeq writes 1 to sD if sA equals sB. -/
  | scCmpeq (n : Nat)
  /-- SC_BR (R126). sc.br branches to a bundle, followed by two cycles without issue. -/
  | scBr (n : Nat)
  /-- SC_BZ (R126). sc.bz branches when sA is zero. -/
  | scBz (n : Nat)
  /-- SC_BNZ (R126). sc.bnz branches when sA is non-zero. -/
  | scBnz (n : Nat)
  /-- SC_LOOP (R126). sc.loop runs the following bundles up to an end bundle sA times, nesting up to four deep. -/
  | scLoop (n : Nat)
  /-- SC_QCFG (R116). sc.qcfg configures a queue's base, entry size and depth and empties it. -/
  | scQcfg (n : Nat)
  /-- SC_QREW (R120). sc.qrew moves a queue's head back by k entries. -/
  | scQrew (n : Nat)
  /-- SC_MYID (R124). sc.myid writes the core's logical, group and physical identity to sD. -/
  | scMyid (n : Nat)
  /-- SC_PEER (R124). sc.peer writes the physical core serving a logical core to sD. -/
  | scPeer (n : Nat)
  /-- SC_SETPROG (R140). sc.setprog sets the core's progress register. -/
  | scSetprog (n : Nat)
  /-- SC_IFILL (R145). sc.ifill starts a background copy of bundles from the core store into the instruction store. -/
  | scIfill (n : Nat)
  /-- SC_MXFMT (R128). sc.mxfmt sets a matrix format slot to a format pair word. -/
  | scMxfmt (n : Nat)
  /-- SC_AMO (R127). sc.amo starts one atomic on a local stack address. -/
  | scAmo (n : Nat)
  /-- AMO_COMPLETE (R127). A core's atomic completes, writing the replaced value to sD or trapping with FK_AMO_REFUSED. -/
  | amoComplete (n : Nat)
  /-- VX_ADD (R133). vx.add pushes the lane-wise sum of A and B. -/
  | vxAdd (n : Nat)
  /-- VX_SUB (R133). vx.sub pushes the lane-wise difference of A and B. -/
  | vxSub (n : Nat)
  /-- VX_MUL (R133). vx.mul pushes the lane-wise product of A and B. -/
  | vxMul (n : Nat)
  /-- VX_FMA (R133). vx.fma pushes A × B + C with one rounding. -/
  | vxFma (n : Nat)
  /-- VX_MAX (R133). vx.max pushes the lane-wise maximum. -/
  | vxMax (n : Nat)
  /-- VX_MIN (R133). vx.min pushes the lane-wise minimum. -/
  | vxMin (n : Nat)
  /-- VX_EXP (R165). vx.exp pushes the defined exponential of each lane. -/
  | vxExp (n : Nat)
  /-- VX_RCP (R165). vx.rcp pushes the correctly rounded reciprocal of each lane. -/
  | vxRcp (n : Nat)
  /-- VX_RSQRT (R165). vx.rsqrt pushes the correctly rounded reciprocal square root of each lane. -/
  | vxRsqrt (n : Nat)
  /-- VX_RSUM (R165). vx.rsum pushes the pairwise-tree sum of A's lanes into every lane. -/
  | vxRsum (n : Nat)
  /-- VX_RMAX (R165). vx.rmax pushes the pairwise-tree maximum of A's lanes into every lane. -/
  | vxRmax (n : Nat)
  /-- VX_GATHER (R133). vx.gather pushes elements read from core-store offsets given by A. -/
  | vxGather (n : Nat)
  /-- VX_CVT (R166). vx.cvt converts A to a storage or vector format, packing planes and block scales. -/
  | vxCvt (n : Nat)
  /-- VX_SCAL (R133). vx.scal multiplies A by an FP32 scalar register. -/
  | vxScal (n : Nat)
  /-- VX_BCAST (R133). vx.bcast fills every lane with a scalar register's value. -/
  | vxBcast (n : Nat)
  /-- VX_CMP (R133). vx.cmp pushes 1 where A < B as INT32. -/
  | vxCmp (n : Nat)
  /-- VX_SEL (R133). vx.sel pushes B where A is non-zero, else C. -/
  | vxSel (n : Nat)
  /-- VECTOR_TOKEN_SET (R118). At cycle t + L a vector result entry's ready token is set. -/
  | vectorTokenSet (n : Nat)
  /-- MX_MMA (R130). mx.mma pops an A and a B panel and queues a panel product into an accumulator bank. -/
  | mxMma (n : Nat)
  /-- MMA_COMPLETE (R130). A running mma ends, releases its panels and lets the waiting mma or drain start. -/
  | mmaComplete (n : Nat)
  /-- MX_DRAIN (R131). mx.drain queues a conversion of an accumulator bank into an output queue. -/
  | mxDrain (n : Nat)
  /-- DRAIN_START (R131). A drain starts once earlier mma on its bank have ended and performs its checksum comparison. -/
  | drainStart (n : Nat) (v : Verdict)
  /-- DRAIN_ROW_PUSH (R131). The drain pushes the next converted row and sets its token. -/
  | drainRowPush (n : Nat)
  /-- LD_TILE (R134). ld.tile requests COUNT tiles of a descriptor to be pushed into a queue. -/
  | ldTile (n : Nat)
  /-- LOAD_ENTRY_READY (R136). A loaded entry's last byte is written and its token set, possibly with a poison mark. -/
  | loadEntryReady (n q : Nat)
  /-- ST_TILE (R134). st.tile pops COUNT entries and writes them to tiles of a descriptor. -/
  | stTile (n : Nat)
  /-- STORE_COMPLETE (R137). A store operation's writes complete and its counter falls. -/
  | storeComplete (n : Nat)
  /-- SY_AWAIT (R138). sy.await holds the bundle until N entries of a queue are present and ready. -/
  | syAwait (n : Nat)
  /-- SY_SPACE (R138). sy.space holds the bundle until a queue has N free slots. -/
  | sySpace (n : Nat)
  /-- SY_STW (R138). sy.stw holds the bundle until at most N stores are outstanding on a counter. -/
  | syStw (n : Nat)
  /-- SY_LDW (R138). sy.ldw holds the bundle until at most N loads are outstanding. -/
  | syLdw (n : Nat)
  /-- SY_MX (R138). sy.mx holds the bundle until the MAC buffer has no waiting operation. -/
  | syMx (n : Nat)
  /-- SY_DR (R138). sy.dr holds the bundle until the drain path has no waiting drain. -/
  | syDr (n : Nat)
  /-- SY_IFILL (R138). sy.ifill holds the bundle until no instruction fill is in progress. -/
  | syIfill (n : Nat)
  /-- SY_BAR (R138). sy.bar holds the core until every core of the group reaches the same barrier. -/
  | syBar (n : Nat)
  /-- BARRIER_RELEASE (R138). A barrier releases 8 or 25 cycles after the last core arrives. -/
  | barrierRelease (p g : Nat)
  /-- SY_CYC (R138). sy.cyc holds the bundle for N cycles. -/
  | syCyc (n : Nat)
  /-- SY_SWPT (R144). sy.swpt is a switch point where, on a requested switch, the core idles and its state is saved. -/
  | sySwpt (n : Nat)
  /-- SY_END (R140). sy.end sets the progress register and ends the core's part of the kernel. -/
  | syEnd (n : Nat)
  /-- SY_IDLE (R138). sy.idle holds the bundle until every unit is idle. -/
  | syIdle (n : Nat)
  /-- SY_AMO (R138). sy.amo holds the bundle until the core's atomic is complete. -/
  | syAmo (n : Nat)
  /-- GROUP_STOP (R141). 16 cycles after a trap the other cores of the group stop and the KERNEL completes with the trap's status. -/
  | groupStop (p g : Nat)
  /-- WATCHDOG_EXPIRY (R143). A core's watchdog count reaching its limit traps with FK_WDOG. -/
  | watchdogExpiry (n : Nat)
  /-- IFILL_GO (R145). Writing CORE[n].IFILL.GO starts an instruction fill when no kernel runs, or sets REFUSED. -/
  | ifillGo (who : Requester) (n src dst count : Nat)
  /-- IFILL_DONE (R145). An instruction fill ends and sets IFILLST.DONE. -/
  | ifillDone (n : Nat)
  /-- CORE_RETIRE (R149). Writing MAP.RETIRE retires a core at once or marks it pending until its partition's next switch. -/
  | coreRetire (who : Requester) (n : Nat)
  /-- DESCRIPTOR_CREATE (R176). Writing SEC_DCTL.CREATE starts validation of the staged descriptor words. -/
  | descriptorCreate (who : Requester) (p : Nat)
  /-- DESCRIPTOR_VALIDATION_DONE (R184). Validation ends and writes ST_OK with a new handle, or the failing status. -/
  | descriptorValidationDone (p : Nat)
  /-- DESCRIPTOR_DESTROY (R177). Writing SEC_DCTL.DESTROY makes later resolutions of a handle fail and starts its drain. -/
  | descriptorDestroy (who : Requester) (p target : Nat)
  /-- DESCRIPTOR_DRAIN_DONE (R177). When all earlier commands of the partition have completed, the slot's GEN increments and the slot and allocation reference are freed. -/
  | descriptorDrainDone (p k : Nat)
  /-- SEC_ALLOC_WRITE (R173). A write to an allocation entry is checked against alignment, region and lock, with forgets for sealed partitions. -/
  | secAllocWrite (who : Requester) (p a : Nat) (len : Bool) (v : Nat)
  /-- PARTITION_ENABLE (R257). A write of SEC_PART[p].CTL.ENABLE enables or disables a partition after its checks. -/
  | partitionEnable (who : Requester) (p v : Nat)
  /-- PARTITION_SWITCH_GO (R278). Writing SEC_PSW.GO requests a switch of partitions, or is refused. -/
  | partitionSwitchGo (who : Requester) (a b : Nat)
  /-- SWITCH_DRAIN_FORCE (R279). A core that has not reached sy.swpt LIMIT ticks after the request is stopped and its KERNEL completes with ST_PREEMPTED. -/
  | switchDrainForce (n : Nat)
  /-- WRITE_FRAME (R293). A routed WRITE frame arrives and is relayed, or landed and counted toward its transfer. -/
  | writeFrame (n : Nat) (f : Frame)
  /-- SEAL_FRAME (R72). A SEAL frame arrives and lands at once or is held until its count is reached. -/
  | sealFrame (n : Nat) (f : Frame)
  /-- SEAL_HOLD_EXPIRY (R74). A held seal's hold limit passes and it lands with ST_SEAL_TIMEOUT. -/
  | sealHoldExpiry (src p x : Nat)
  /-- TRANSFER_CLOSE_EXPIRY (R74). 10,000 ticks after its seal landed, a closed transfer id is released. -/
  | transferCloseExpiry (src p x : Nat)
  /-- READREQ_FRAME (R293). A READREQ arriving at its destination is answered with a READREP holding data or a failure status. -/
  | readreqFrame (n : Nat) (f : Frame)
  /-- READREP_FRAME (R294). A READREP lands its data at the requester, or a late reply is discarded. -/
  | readrepFrame (n : Nat) (f : Frame)
  /-- ATOMREQ_FRAME (R79). An ATOMREQ is performed as a home atomic in test mode or refused with ST_NO_REMOTE_ATOMIC. -/
  | atomreqFrame (n : Nat) (f : Frame)
  /-- ATOMREP_FRAME (R293). An ATOMREP delivers the replaced value to the waiting atomic. -/
  | atomrepFrame (n : Nat) (f : Frame)
  /-- REPLY_LIMIT_EXPIRY (R295). A remote read or home atomic without its replies after REPLYLIM completes with ST_LINK_LOST. -/
  | replyLimitExpiry (p q : Nat)
  /-- UNKNOWN_FRAME (R288). A frame of an unknown type is discarded and counted in DISCARD.ROUTE. -/
  | unknownFrame (n : Nat)
  /-- TRAIN_FRAME (R301). A TRAIN frame takes part in training, or one marked dark puts the port in DOWN. -/
  | trainFrame (n : Nat) (dark : Bool)
  /-- SYNC_FRAME (R298). A SYNC frame is measured and drives source choice, acquisition, stepping and locking. -/
  | syncFrame (n gm dist sender sub : Nat)
  /-- STOP_FRAME (R302). A STOP frame makes the port discard later routed frames from that sender's masked partitions. -/
  | stopFrame (n src mask : Nat)
  /-- START_FRAME (R302). A START frame removes partitions from a sender's stop mask. -/
  | startFrame (n src mask : Nat)
  /-- DIGEST_FRAME (R304). The twin's DIGEST frame is compared with the own digest, leading to release or withhold. -/
  | digestFrame (n : Nat) (f : Frame)
  /-- CHECK_FRAME (R305). The twin's CHECK result decides whether the block stays paired or goes solo. -/
  | checkFrame (n : Nat) (f : Frame)
  /-- FENCE_FRAME (R305). The twin's FENCE frame takes a self-checked block to SOLO. Its operand is the port and the frame. -/
  | fenceFrame (x : Nat × Frame)
  /-- OUTPUT_PORT_SEND (R292). An output port sends its highest-class waiting frame once the receiver grants credits for it. -/
  | outputPortSend (n : Nat)
  /-- LINK_SIGNAL_LOSS (R300). A port losing its signal enters FAILED, records FK_LINK_DOWN and discards queued frames. -/
  | linkSignalLoss (n : Nat)
  /-- LINK_FEC_FAIL (R300). A frame FEC cannot correct is discarded, recorded as FK_LINK_FEC and sets the FEC envelope cause. -/
  | linkFecFail (n : Nat) (hdr : Option Frame)
  /-- LINK_RETRAIN_TIMER (R300). 1 ms after entering FAILED a port retrains unless CTL.HOLD is set. -/
  | linkRetrainTimer (n : Nat)
  /-- LINK_RETRAIN (R308). Writing LINK[n].CTL.RETRAIN retrains the port. -/
  | linkRetrain (who : Requester) (n : Nat)
  /-- LINK_TRAINING_DONE (R286). Training ends: the port measures its fibre and comes UP, or fails with FK_LINK_LENGTH. -/
  | linkTrainingDone (n : Nat) (t : Training)
  /-- PLUG_REMOVAL (R419). Removing a fibre plug stops the port's lasers within 1 ms and the port enters FAILED. -/
  | plugRemoval (n : Nat)
  /-- CXL_MEM_READ (R314). A host CXL.mem read is served at a bank window and returns data or poison. -/
  | cxlMemRead (a len : Nat)
  /-- CXL_MEM_WRITE (R314). A host CXL.mem write is stored and completed once visible to every engine. -/
  | cxlMemWrite (a : Nat) (data : Bytes)
  /-- HDM_COMMIT (R313). The host committing the HDM decoder maps the 384 GiB range or sets Error Not Committed. -/
  | hdmCommit (size ways : Nat)
  /-- UCIE_MODULE_FAIL (R309). A failing UCIe module records FK_UCIE_MOD and the port runs on the remaining modules. -/
  | ucieModuleFail (k : Nat)
  /-- MAILBOX_WRITE (R311). A sideband mailbox write passes a 64 B frame to the recovery core in Twilight, or is refused. -/
  | mailboxWrite (data : Bytes)
  /-- GET_LOG (R312). The mailbox command Get Log returns a log. -/
  | getLog (req : Bytes)
  /-- MAILBOX_UNSUPPORTED (R312). Any other memory device mailbox command completes with Unsupported. -/
  | mailboxUnsupported (opcode : Nat)
  /-- DOE_DISCOVERY (R312). A DOE Discovery request returns the supported DOE protocols. -/
  | doeDiscovery (index : Nat)
  /-- CDAT_READ (R312). A DOE CDAT request returns the coherent device attribute table. -/
  | cdatRead (req : Bytes)
  /-- FAR_PORT_ENABLE (R320). Writing FARCXL_CTL.ENABLE starts the far-tier port and enumerates its expanders. -/
  | farPortEnable (who : Requester) (v : Nat)
  /-- FAR_PORT_UP (R320). Enumeration ends with accepted expanders mapped into the far tier and rejected ones recorded. -/
  | farPortUp (es : List FarExpander)
  /-- FAR_ACCESS_COMPLETE (R322). A far-tier slot access completes, verifying or writing its seal and updating the seal table. -/
  | farAccessComplete (slot : Nat) (poison : Bool)
  /-- FAR_ACCESS_TIMEOUT (R323). A far-tier access without completion within TIMEOUT ends with ST_FAR_DOWN and marks the expander down. -/
  | farAccessTimeout (slot : Nat)
  /-- FAR_LINK_DOWN (R323). A far-tier link going down or failing IDE ends its accesses with ST_FAR_DOWN. -/
  | farLinkDown (e : Nat) (sent : List Nat)
  /-- MC_LOCKSTEP_MISMATCH (R351). A mismatch in a management-core pair stops that pair and records FK_LOCKSTEP_MC. -/
  | mcLockstepMismatch (k : Nat)
  /-- SEAM_CRC_ERROR (R353). A CRC error on a seam control flit records FK_SEAM_CRC and halts the block. -/
  | seamCrcError (dir : Nat)
  /-- FAULT_ACK (R346). Writing FAULT_ACK.GO closes a partition's fault record slot. -/
  | faultAck (who : Requester) (p : Nat)
  /-- FAULT_STOP_CLEAR (R348). Writing 1 to a FAULT_STOP bit clears it and sends START frames for that partition. -/
  | faultStopClear (who : Requester) (mask : Nat)
  /-- RETIRE_ROW (R337). FAULT_RETIRE.GO with KIND 1 starts the copy of a row to a spare, or is refused. -/
  | retireRow (who : Requester) (n b row : Nat)
  /-- RETIRE_BANK (R338). FAULT_RETIRE.GO with KIND 2 takes a bank offline at its next yield point. -/
  | retireBank (who : Requester) (n b : Nat)
  /-- RETIRE_STACK (R338). FAULT_RETIRE.GO with KIND 3 takes every bank of a stack offline. -/
  | retireStack (who : Requester) (n : Nat)
  /-- SELF_CHECK_GO (R343). Writing FAULT_SELF.GO switches out the partitions and starts the self-check. -/
  | selfCheckGo (who : Requester)
  /-- SELF_CHECK_DONE (R343). The self-check ends, reports pass or fail and switches the partitions back in. -/
  | selfCheckDone (failed : List CheckerPart)
  /-- DIAG_TEST (R341). Every DIAGPER µs the hub retests every checker and injects mismatches into the comparators. -/
  | diagTest (failed : List CheckerPart)
  /-- FAULT_INJ_ARM (R355). Writing FAULT_INJ.ARM in test mode arms a symbol flip at the next write to the address. -/
  | faultInjArm (who : Requester) (addr syms : Nat)
  /-- FIRMWARE_BOOT_GO (R356). Writing SEC_BOOT.GO makes the ROM copy and start verifying a firmware image. -/
  | firmwareBootGo (who : Requester) (len : Nat)
  /-- FIRMWARE_STARTED (R404). Firmware writing SEC_BOOT.STARTED clears FAILS and records the start time. -/
  | firmwareStarted (who : Requester)
  /-- ARB_ADVANCE (R357). Writing SEC_ARB.ADVANCE blows anti-rollback fuse bits up to the target and the running SVN. -/
  | arbAdvance (who : Requester) (target : Nat)
  /-- OPTION_STORE_WRITE (R360). Writing SEC_OPT.GO checks temperature and writes the option store or an owner record. -/
  | optionStoreWrite (who : Requester) (offset len : Nat)
  /-- GET_VERSION (R363). The SPDM request GET_VERSION returns the supported versions. -/
  | getVersion (t : Transport) (req : Bytes)
  /-- GET_CAPABILITIES (R363). The SPDM request GET_CAPABILITIES returns the responder's capabilities. -/
  | getCapabilities (t : Transport) (req : Bytes)
  /-- NEGOTIATE_ALGORITHMS (R363). The SPDM request NEGOTIATE_ALGORITHMS selects the algorithms. -/
  | negotiateAlgorithms (t : Transport) (req : Bytes)
  /-- GET_DIGESTS (R363). The SPDM request GET_DIGESTS returns the certificate chain digest. -/
  | getDigests (t : Transport) (req : Bytes)
  /-- GET_CERTIFICATE (R363). The SPDM request GET_CERTIFICATE returns the slot-0 certificate chain. -/
  | getCertificate (t : Transport) (req : Bytes)
  /-- CHALLENGE (R363). The SPDM request CHALLENGE is answered with an identity-key signature. -/
  | challenge (t : Transport) (req : Bytes)
  /-- GET_MEASUREMENTS (R364). The SPDM request GET_MEASUREMENTS returns the measurement blocks. -/
  | getMeasurements (t : Transport) (req : Bytes)
  /-- KEY_EXCHANGE (R363). The SPDM request KEY_EXCHANGE starts a secured session. -/
  | keyExchange (t : Transport) (req : Bytes)
  /-- FINISH (R363). The SPDM request FINISH completes a secured session's establishment. -/
  | finish (t : Transport) (req : Bytes)
  /-- END_SESSION (R363). The SPDM request END_SESSION ends a secured session. -/
  | endSession (t : Transport) (req : Bytes)
  /-- VENDOR_DEFINED_REQUEST (R363). An SPDM VENDOR_DEFINED_REQUEST other than KEYAGREE is handled by the security engine. -/
  | vendorDefinedRequest (t : Transport) (req : Bytes)
  /-- KEYAGREE (R366). The vendor-defined KEYAGREE exchange derives and loads a ring, far-tier, link or import key, or is refused. -/
  | keyagree (t : Transport) (k : KeyReq)
  /-- WEIGHT_MEASURE_GO (R365). Writing WMEASCTL.GO checks rights and starts hashing up to four ranges into a Merkle measurement. -/
  | weightMeasureGo (who : Requester) (p : Nat)
  /-- WEIGHT_MEASURE_DONE (R365). A weight measurement ends and updates the partition's measurement index. -/
  | weightMeasureDone (p : Nat)
  /-- PARTITION_SEAL (R368). Writing SEC_TENANT[p].CTL.SEALED seals a partition and puts the block in lockdown. -/
  | partitionSeal (who : Requester) (p : Nat)
  /-- IMPORT_GO (R371). Writing IMPORT.GO starts decrypting ciphertext chunks into a sealed partition's allocation. -/
  | importGo (who : Requester) (p len : Nat)
  /-- IMPORT_DONE (R371). An import ends with its status and chunk count, forgetting a chunk whose tag failed. -/
  | importDone (p : Nat)
  /-- POWER_STATE_REQUEST (R381). Writing PWR_REQ.GO requests a deeper state, accepted unless a refuser applies. -/
  | powerStateRequest (who : Requester) (target : Nat)
  /-- DAWN_STAGE_READY (R383). A Dawn stage signals ready and the next stage starts. -/
  | dawnStageReady (tag : Verdict)
  /-- POWER_GUARD_SAMPLE (R391). Every 1 µs the guard measures power over its window and acts or releases. -/
  | powerGuardSample (watts : Nat)
  /-- THERM_NOW_READ (R387). A read of THERM_NOW[z] converts the zone and returns its reading 40 µs later. -/
  | thermNowRead (who : Requester) (z : Nat)
  /-- CONVERSION_DONE (R387). A temperature conversion ends, updating zone readings and flagging implausible sensors. -/
  | conversionDone (readings : List Int)
  /-- DIE_TRIP (R389). A compute die reaching 120 °C latches the trip, stops its clocks, asserts THERMTRIP_N and halts. -/
  | dieTrip (d : Nat)
  /-- DRAM_TRIP (R389). A stack's DRAM reaching 105 °C latches the trip and fences the stack. -/
  | dramTrip (n : Nat)
  /-- RAIL_FAIL (R392). A REG_GOOD input falling while its rail is enabled records FK_RAIL and halts. -/
  | railFail (k : Nat)
  /-- PLL_LOCK_LOSS (R392). A PLL losing lock records FK_PLL and halts. -/
  | pllLockLoss (d : Nat)
  /-- COLD_RESET_ASSERT (R398). A low rail-good input, absent REFCLK or an honoured MRST_N pulse asserts cold reset. -/
  | coldResetAssert (cause : ColdCause)
  /-- STARTUP_CHECKER_TEST (R340). At start every checker is tested with its 1,170 patterns before CXL.mem is presented. -/
  | startupCheckerTest (failed : List CheckerPart)
  /-- WARM_RESET_REQUEST (R399). Writing RST_CTL.WARM runs the Halt reaction and then asserts warm reset. -/
  | warmResetRequest (who : Requester)
  /-- PARTITION_RESET (R401). Writing RST_PART.GO resets the masked partitions in the steps of the rule. -/
  | partitionReset (who : Requester) (mask : Nat)
  /-- UNIT_RESET (R402). Writing RST_UNIT.GO resets a core, stack sequencer or link port, or is refused. -/
  | unitReset (who : Requester) (cls inst : Nat)
  /-- TEST_MODE_ENTER (R406). Writing RST_MODE.TEST enters test mode unless a partition is sealed or a link key is valid. -/
  | testModeEnter (who : Requester)
  /-- QCTL_RESUME (R104). Writing QCTL.RESUME clears a queue's HALTED at the next tick boundary. -/
  | qctlResume (who : Requester) (p q : Nat)
  /-- QCTL_ENABLE (R108). Writing QCTL.ENABLE enables or disables a queue, refusing an invalid ring setting. -/
  | qctlEnable (who : Requester) (p q v : Nat)
  /-- EVRAISE (R89). Writing SEQR EVRAISE increments an event counter as an increment of the current tick. -/
  | evraise (who : Requester) (p e : Nat)
  /-- UCIE_TRAINING_DONE (R309). The host port finishes training its modules, sets UCIE_STAT.MODS, RATE and FLIT, and makes the control space and CXL.mem available. -/
  | ucieTrainingDone (mods : List (Option (Bool × Nat))) (flit : Bool)
  /-- PLUG_INSERTION (R419). A fibre plug inserted into a port's receptacle lets the enabled port's lasers emit again so that the port can train. -/
  | plugInsertion (n : Nat)
  /-- SCALAR_RESULT_WRITE (R125). At the end of a scalar operation's latency its result reaches sD, the later-issued result standing when two arrive in one cycle. -/
  | scalarResultWrite (n : Nat)
  /-- TICK_BOUNDARY (R30). At each tick the sequencer snapshots every queue tail, applies pending register writes and event raises, and evaluates commands for issue in fixed order. -/
  | tickBoundary
  /-- SWITCH_PHASE_COMPLETE (R280). A switch phase ends and the next begins: drain, settle, save, restore and residency. -/
  | switchPhaseComplete
  /-- SYNC_SEND_TIMER (R298). Every 10 µs a LOCKED or grandmaster block sends SYNC on each UP port. -/
  | syncSendTimer
  /-- SYNC_SILENCE_TIMEOUT (R25). 100 µs without a synchronisation frame takes a LOCKED follower to HOLDOVER. -/
  | syncSilenceTimeout
  /-- HOLDOVER_TIMEOUT (R25). 1 s without a frame in HOLDOVER takes the state to FREE. -/
  | holdoverTimeout
  /-- DIGEST_READY (R304). 2 µs after EMIT's last record the own digest is ready and the DIGEST frame is sent. -/
  | digestReady
  /-- PAIR_WAIT_EXPIRY (R304). The twin's digest not arriving within PAIR.WAIT is treated as a mismatch and the output withheld. -/
  | pairWaitExpiry
  /-- PAIR_GRACE_EXPIRY (R305). No word from the twin within PAIR.GRACE takes the block to SOLO with FK_PAIR_LOST. -/
  | pairGraceExpiry
  /-- SIDEBAND_IDENTITY (R311). A sideband identity query is answered with GLOBAL_ID, GLOBAL_REV and the block number. -/
  | sidebandIdentity
  /-- SIDEBAND_TEMPERATURE (R387). A sideband temperature query converts every zone and answers with the hottest readings. -/
  | sidebandTemperature
  /-- MAILBOX_READ (R311). A sideband mailbox read returns a 64 B frame from the recovery core in Twilight, or is refused. -/
  | mailboxRead
  /-- IDENTIFY_MEMORY_DEVICE (R312). The memory device mailbox command Identify Memory Device returns the device identity. -/
  | identifyMemoryDevice
  /-- GET_SUPPORTED_LOGS (R312). The mailbox command Get Supported Logs returns the supported logs. -/
  | getSupportedLogs
  /-- GET_HEALTH_INFO (R312). The mailbox command Get Health Info returns health information. -/
  | getHealthInfo
  /-- LOCKSTEP_MISMATCH (R351). A mismatch between the control cluster's lockstep copies records FK_LOCKSTEP_SEQ and halts the block. -/
  | lockstepMismatch
  /-- ROW_COPY_SLOT (R337). In the next idle cool-calendar slots the row is read into a buffer and then written to the spare and remapped. -/
  | rowCopySlot
  /-- FIRMWARE_VERIFY_DONE (R356). Verification ends by starting the firmware or setting the refused state with a status and fault. -/
  | firmwareVerifyDone
  /-- OPTION_STORE_WRITE_DONE (R362). An option-store write ends and reports its status. -/
  | optionStoreWriteDone
  /-- OPTION_LOAD (R361). At start the option loader applies spare and retirement maps and the owner-signed settings records. -/
  | optionLoad
  /-- STATE_ENTRY_DONE (R379). When the entry time has passed the block is in the requested state, saving state for Midnight. -/
  | stateEntryDone
  /-- WAKE_PIN (R381). A falling edge on WAKE_N while PWR_WAKE.PIN is 1 wakes the block. -/
  | wakePin
  /-- WAKE_TIMER (R381). The tick in PWR_WAKE.AT passing wakes the block. -/
  | wakeTimer
  /-- HOST_WAKE_REQUEST (R381). A host request to leave the UCIe low-power state, or a request in Dusk, wakes the block. -/
  | hostWakeRequest
  /-- DAWN_STAGE_TIMEOUT (R383). A Dawn stage exceeding its limit records FK_DAWN_STAGE and retries Dawn once, then halts. -/
  | dawnStageTimeout
  /-- DAY_REACHED (R379). Day is reported exactly at the end of the exit time. -/
  | dayReached
  /-- COLD_RESET_RELEASE (R398). 1 ms after the last cold-reset condition clears, cold reset is released and start-up begins. -/
  | coldResetRelease
  /-- WARM_RESET_RELEASE (R399). After 20 µs and any sealed forgets, warm reset is released and domains leave reset in order. -/
  | warmResetRelease
  /-- START_TIMEOUT (R404). STARTED still 0 two seconds after release counts a failed start and causes a warm reset. -/
  | startTimeout
  /-- UNIT_RESET_RELEASE (R402). A unit in reset is released after its time or when its port is UP. -/
  | unitResetRelease
  /-- LINK_LEVEL_RETRY (R310). A flit received with a CRC error on the host port is retried by the adapter and counted in UCIE_ERR.CRC and UCIE_ERR.RETRY. -/
  | linkLevelRetry
  deriving DecidableEq, Repr

end Sys2Proof
end

