-- ==== Sys2Proof/Config.lean ====
section
/-! DEFINITION. What the spec leaves open or names without defining: free values and the standard algorithms it refers to. None has a body, so nothing proved here rests on a value of one. -/
namespace Sys2Proof

/-- What the block's CXL.io function presents in its configuration space (R312): vendor, device, class code, bytes of BAR0 (64-bit, non-prefetchable), and the CXL Device DVSEC's
Mem_Capable, Cache_Capable and HDM_Count. No command of the table reads it (log entry 129). -/
structure CxlFunction where
  vendor : Nat
  device : Nat
  classCode : Nat
  bar0 : Nat
  memCapable : Bool
  cacheCapable : Bool
  hdmCount : Nat
  deriving DecidableEq, Repr

def Config.function : CxlFunction := ⟨0x1D7A, 0x0C12, 0x050210, 2 ^ 28, true, false, 1⟩

/-- A value the spec does not state, fresh for each count of the model's counter (log entry 6). -/
opaque Config.freeValue : Nat → Nat

/-- A byte of host memory that the block has not written: the host's own memory, outside the block (R60; log entry 7). First the model's counter, then the address. -/
opaque Config.hostByte : Nat → Nat → Byte

/-- SHA-512 (R356, R359, R366, R367), named by the spec and not defined in it: 64 bytes of a byte string (log entry 8). -/
opaque Config.sha512 : Bytes → Bytes

/-- AES-256-GCM sealing (R297, R322, R367, R371): key, nonce, additional data, plaintext; answers ciphertext and 16-byte tag (log entry 8). -/
opaque Config.gcmSeal : Bytes → Nat → Bytes → Bytes → Bytes × Bytes

/-- AES-256-GCM opening: key, nonce, additional data, ciphertext, tag; nothing when the tag fails (log entry 8). -/
opaque Config.gcmOpen : Bytes → Nat → Bytes → Bytes → Bytes → Option Bytes

/-- Ed25519 verification (R356, R361, R366): public key, message, signature (log entry 8). -/
opaque Config.edVerify : Bytes → Bytes → Bytes → Bool

/-- Ed25519 signing (R363, R366): private seed, message (log entry 8). -/
opaque Config.edSign : Bytes → Bytes → Bytes

/-- Ed25519 public key of a private seed (R359; log entry 8). -/
opaque Config.edPublic : Bytes → Bytes

/-- X25519 (R366): scalar and point (log entry 8). -/
opaque Config.x25519 : Bytes → Bytes → Bytes

/-- Bytes drawn by the block's random source for ephemeral keys and nonces, fresh for each count (log entry 8). -/
opaque Config.random : Nat → Bytes

/-- Bodies of messages whose layout outside standards define (SPDM, CXL mailbox logs, CDAT): request kind, request bytes, bytes of block state the answer reports (log entry 9). -/
opaque Config.messageBody : Nat → Bytes → Bytes → Bytes

/-- The fused hash of the vendor key: 32 bytes (R356; log entry 8). -/
opaque Config.vendorKeyHash : Bytes

/-- The 256-bit fused seed of the block's identity (R359; log entry 8). -/
opaque Config.fusedSeed : Bytes

/-- The boot ROM, as its measurement covers it (R364; log entry 8). -/
opaque Config.bootRom : Bytes

/-- What an entry of the option store's row and bank maps names, and the state its core and stack maps give a unit: the spec gives those maps no layout (R360; log entry 24). Row: stack × 2²⁴ + bank × 2¹⁵ + row; bank: stack × 512 + bank. -/
opaque Config.rowEntry : Nat → Nat
opaque Config.bankEntry : Nat → Nat
opaque Config.coreEntry : Bytes → Nat → Nat
opaque Config.stackEntry : Bytes → Nat → Bool

end Sys2Proof
end

