-- ==== Sys2Proof/Machine/Fields.lean ====
section
/-! DEFINITION. The control-space registers of the block: one constructor of `Fld` per field of the register tables of spec/ (files 00, 02, 04, 05, 07 to 16),
with its bit range, access type (R5) and value after cold reset, and the table of 64-bit words that says at which offsets the fields stand (R10 and the register tables). -/
namespace Sys2Proof.Machine

/-- Access types of R5 (spec/00_scope.md). -/
inductive Access where
  | ro | rw | w1c | w1s | wo | rc | rwl
  deriving DecidableEq, Repr

/-- Every field of the register tables, under the name the table gives it; SEQR, CORE, STACK and LINK fields carry their region first. -/
inductive Fld where
  | GLOBAL_ID_VENDOR | GLOBAL_ID_DEVICE | GLOBAL_REV_STEP | GLOBAL_REV_ROM | GLOBAL_REV_OPTVALID | GLOBAL_BLOCK_NUM
  | GLOBAL_BLOCK_LOCK | GLOBAL_BADACC_COUNT | TIME_NOW_NS | TIME_TICK_TICK | TIME_SET_NS | TIME_CTL_LOAD
  | TIME_CTL_ROLE | TIME_SYNC_STATE | TIME_SYNC_PORT | TIME_SYNC_OFFSET | TIME_SYNC_LOCKLOSS | TIME_SYNC_HELD
  | TIME_SCHED_OVERRUN | TIME_SCHED_ONDEMAND | TIME_SCHED_LASTTAG | TIME_REFR_HOT | TIME_REFR_REALIGN | TIME_ENV_IN
  | TIME_ENV_THROTTLE | TIME_ENV_PGUARD | TIME_ENV_FEC | TIME_ENV_UE | TIME_ENV_PREEMPT | TIME_ENV_ASAP
  | TIME_ENV_NEIGHBOUR | TIME_ENV_COUNT | TIME_ENVLAST_TICK | TIME_ENVLAST_CAUSE | SEQR_QBASE_ADDR | SEQR_QSIZE_LOG2
  | SEQR_QHEAD_HEAD | SEQR_QTAIL_TAIL | SEQR_CRBASE_ADDR | SEQR_QTBASE_TICK | SEQR_QSTAT_HALTED | SEQR_QSTAT_EMPTY
  | SEQR_QSTAT_LASTST | SEQR_QSTAT_LASTTAG | SEQR_QCTL_ENABLE | SEQR_QCTL_RESUME | SEQR_QDONE_COUNT | SEQR_EVRAISE_EVENT
  | SEQR_PARAM_VALUE | SEQR_EVC_COUNT | TRACE_CTL_EN | TRACE_CTL_WRAP | TRACE_CTL_PMASK | TRACE_CTL_KMASK
  | TRACE_BASE_ADDR | TRACE_SIZE_LOG2 | TRACE_WP_INDEX | TRACE_DROP_COUNT | CORE_ID_PHYS | CORE_ID_ROW
  | CORE_ID_COL | CORE_ID_DIE | CORE_MAP_STATE | CORE_MAP_LOGICAL | CORE_MAP_PART | CORE_MAP_GROUP
  | CORE_MAP_INGROUP | CORE_MAP_RETIRE | CORE_CTL_ABFT | CORE_WDOG_LIMIT | CORE_STAT_RUN | CORE_STAT_TRAPPED
  | CORE_STAT_PC | CORE_STAT_LASTFK | CORE_QSTAT_QFULL | CORE_QSTAT_QEMPTY | CORE_ISTAT_CECOUNT | CORE_ISTAT_UEBUNDLE
  | CORE_ISTAT_UEVALID | CORE_IFILL_SRC | CORE_IFILL_DST | CORE_IFILL_COUNT | CORE_IFILL_GO | CORE_IFILLST_BUSY
  | CORE_IFILLST_DONE | CORE_IFILLST_REFUSED | CORE_PROG_VALUE | CORE_CSECC_CECOUNT | CORE_CSECC_UECOUNT | CORE_ISSUED_COUNT
  | CORE_STALLED_COUNT | CORE_ABFT_COUNT | SEC_DNEW_WORD | SEC_DCTL_CREATE | SEC_DCTL_DESTROY | SEC_DCTL_TARGET
  | SEC_DRES_BUSY | SEC_DRES_STATUS | SEC_DRES_HANDLE | SEC_DSTAT_LIVE | SEC_DSTAT_DRAINING | SEC_ALLOC_BASE
  | SEC_ALLOC_READ | SEC_ALLOC_WRITE | SEC_ALLOC_LEN | SEC_ALLOC_REFS | STACK_ID_NUM | STACK_ID_DIE
  | STACK_ID_STATE | STACK_SEQ_RUNNING | STACK_SEQ_INFLIGHT | STACK_SEQ_QPWR | STACK_TEMP_HOT | STACK_TEMP_THROT
  | STACK_TEMP_LEVEL | STACK_TEMP_COUNT | STACK_THROTCYC_COUNT | STACK_ACC_HOLDMAX | STACK_ACC_HOSTDEFER | STACK_WMSTAT_WRITTEN
  | STACK_WMSTAT_MERGES | STACK_FORGET_BASE | STACK_FORGET_LEN | STACK_FORGET_GO | STACK_FORGETST_BUSY | STACK_FORGETST_DONE
  | STACK_FORGETST_REFUSED | STACK_BUSY_BANKS | STACK_QBUSY_QUAD | STACK_OFFLINE_BANKS | SEC_POOL_CFG_ENABLE | SEC_POOL_CFG_LOG2
  | SEC_POOL_RING_ADDR | SEC_POOL_COUNT_FREE | SEC_POOL_RESERVE_PAGES | SEC_POOL_LOW_LEVEL | SEC_POOL_LOW_EVENT | SEC_POOL_LOW_HIT
  | SEC_POOL_ADD_FIRST | SEC_POOL_ADD_COUNT | SEC_POOL_ADD_GO | SEC_POOL_ADDST_BUSY | SEC_POOL_ADDST_DONE | SEC_POOL_ADDST_REFUSED
  | SEC_POOL_FAIL_COUNT | SEQR_STEP_NUM | SEQR_STEP_OPEN | SEQR_STEP_ALT | SEQR_STEP_START | SEQR_STEP_DEADLINE
  | SEQR_STEP_ABANDON | SEQR_MON_EWF | SEQR_MON_WARNEV | SEQR_MON_MISSEV | SEQR_MON_DECAY | SEQR_MON_WARNCOUNT
  | SEQR_MON_MISSCOUNT | SEQR_MON_LASTCK | SEQR_MON_LASTCKTAG | SEQR_ACT_ENABLE | SEQR_ACT_TRIG | SEQR_ACT_KIND
  | SEQR_ACT_BMASK | SEQR_ACT_SHEDADD | SEQR_ACT_PMIN | SEQR_ACT_AREG | SEQR_ACTVAL_VALUE | SEQR_BOUND_LEN
  | SEQR_WL_BASE | SEQR_IR_RATIO | SEQR_IR_MAX | SEQR_IR_REF | SEQR_OUT_BASE | SEQR_OUT_LOG2
  | SEC_PART_CTL_ENABLE | SEC_PART_CTL_RESIDENT | SEC_PART_CWAYS_MASK | SEC_PART_RANGE_FIRST | SEC_PART_RANGE_COUNT | SEC_PART_SAVE_BASE
  | SEC_PART_CG_CORES | SEC_PSW_OUT | SEC_PSW_IN | SEC_PSW_GO | SEC_PSW_BUSY | SEC_PSW_REFUSED
  | SEC_PSW_PHASE | SEC_PSW_LIMIT | SEC_PSW_FORCED | SEC_PSW_LASTDUR | LINK_ID_PORT | LINK_ID_DIE
  | LINK_STATE_STATE | LINK_STATE_NBLOCK | LINK_STATE_NPORT | LINK_STATE_FIBRE | LINK_CTL_ENABLE | LINK_CTL_HOLD
  | LINK_CTL_RETRAIN | LINK_TXFRAMES_COUNT | LINK_RXFRAMES_COUNT | LINK_RELAYED_COUNT | LINK_DISCARD_NOSERVICE | LINK_DISCARD_ROUTE
  | LINK_DISCARD_DOWN | LINK_DISCARD_STOPPED | LINK_FEC_CORR | LINK_FEC_FAIL | LINK_AUTH_FAIL | LINK_STOP_SRC
  | LINK_STOP_PMASK | LINK_GCTL_REPLYLIM | LINK_GCTL_LATEREP | LINK_PAIR_ENABLE | LINK_PAIR_WRITE | LINK_PAIR_PORT
  | LINK_PAIR_STATE | LINK_PAIR_STAGE | LINK_PAIR_WAIT | LINK_PAIR_GRACE | LINK_PAIR_MISMATCH | LINK_PAIR_LOST
  | LINK_PAIR_LASTSTEP | UCIE_STAT_MODS | UCIE_STAT_RATE | UCIE_STAT_FLIT | UCIE_STAT_HDMCOMMIT | UCIE_MOD_STATE
  | UCIE_MOD_REPAIRED | UCIE_ERR_RETRY | UCIE_ERR_CRC | UCIE_CREDSTALL_NS | UCIE_POISON_COUNT | FARCXL_CTL_ENABLE
  | FARCXL_CTL_BIF | FARCXL_CTL_TIMEOUT | FARCXL_STAT_STATE | FARCXL_STAT_GIB | FARCXL_EXP_STATE | FARCXL_EXP_WIDTH
  | FARCXL_EXP_RATE | FARCXL_EXP_GIB | FARCXL_EXP_BASE | FARCXL_SEALTAB_BASE | FARCXL_SEALTAB_SLOTS | FARCXL_ERR_AUTH
  | FARCXL_ERR_POISON | FARCXL_ERR_TIMEOUT | FARCXL_TRAFFIC_RMW | FAULT_CFG_LOCKSTEP | FAULT_CFG_DIAGEN | FAULT_CFG_CETHRESH
  | FAULT_CFG_DIAGPER | FAULT_CFG_LOCK | FAULT_STATUS_GUAR | FAULT_STATUS_HALT | FAULT_STATUS_CACHEBYP | FAULT_STATUS_OPEN
  | FAULT_ACK_PART | FAULT_ACK_GO | FAULT_STOP_STOPPED | FAULT_RETIRE_KIND | FAULT_RETIRE_STACK | FAULT_RETIRE_BANK
  | FAULT_RETIRE_ROW | FAULT_RETIRE_GO | FAULT_RETST_BUSY | FAULT_RETST_DONE | FAULT_RETST_REFUSED | FAULT_RETST_SPARES
  | FAULT_SELF_GO | FAULT_SELF_BUSY | FAULT_SELF_RESULT | FAULT_SELF_LASTDUR | FAULT_INJ_ADDR | FAULT_INJ_SYMS
  | FAULT_INJ_ARM | FAULT_ELOGWP_INDEX | FAULT_CNT_CE | FAULT_CNT_UE | FAULT_CNT_OFFWR | FAULT_REC_LO
  | FAULT_REC_HI | FAULT_REC_FIRST | FAULT_REC_LAST | FAULT_PCFG_EVENT | FAULT_PCFG_EVEN | FAULT_PCFG_MERGED
  | FAULT_ELOG_LO | FAULT_ELOG_HI | FAULT_WREG_BASE | FAULT_WREG_VALID | FAULT_WREG_LEN | FAULT_WREG_PLANES
  | FAULT_WREG_ARR | FAULT_WREG_PSTRIDE | FAULT_WREG_MIRROR | SEC_BOOT_ADDR | SEC_BOOT_LEN | SEC_BOOT_GO
  | SEC_BOOT_STATE | SEC_BOOT_STATUS | SEC_BOOT_SVN | SEC_BOOT_STARTED | SEC_ARB_COUNT | SEC_ARB_ADVANCE
  | SEC_IDKEY_WORD | SEC_OPT_OFFSET | SEC_OPT_LEN | SEC_OPT_GO | SEC_OPT_SRC | SEC_OPTST_BUSY
  | SEC_OPTST_STATUS | SEC_OPTST_OWNED | SEC_DENY_COUNT | SEC_LOCK_DOWN | SEC_KEYST_VALID | SEC_KEYST_PART
  | SEC_KEYST_PEER | SEC_KEYST_PPART | SEC_TENANT_CTL_SEALED | SEC_TENANT_CTL_RINGKEY | SEC_TENANT_CTL_FARKEY | SEC_TENANT_CTL_IMPKEY
  | SEC_TENANT_TKEY | SEC_TENANT_WMEAS_BASE | SEC_TENANT_WMEAS_LEN | SEC_TENANT_WMEASCTL_GO | SEC_TENANT_WMEASCTL_BUSY | SEC_TENANT_WMEASCTL_STATUS
  | SEC_TENANT_WMEASCTL_LEAVES | SEC_TENANT_IMPORT_SRC | SEC_TENANT_IMPORT_DST | SEC_TENANT_IMPORT_LEN | SEC_TENANT_IMPORT_GO | SEC_TENANT_IMPORTST_BUSY
  | SEC_TENANT_IMPORTST_STATUS | SEC_TENANT_IMPORTST_CHUNKS | PWR_STATE_CUR | PWR_STATE_MOVING | PWR_STATE_DAWNSTAGE | PWR_REQ_TARGET
  | PWR_REQ_GO | PWR_WAKE_AT | PWR_WAKE_PIN | PWR_CFG_RELAYWIN | PWR_VETO_PART | PWR_REFUSE_COUNT
  | PWR_LASTREF_CLASS | PWR_LASTREF_INST | PWR_LASTREF_TARGET | PWR_LASTREF_TICK | PWR_ASSIST_CSIS | PWR_ASSIST_CACHE
  | PWR_ASSIST_CTRL | PWR_GUARD_LIMIT | PWR_GUARD_RELEASE | PWR_GUARD_COUNT | PWR_GUARD_ACTIVE | PWR_EXIT_LASTUS
  | PWR_MNSAVE_BASE | PWR_DOM_CORE | PWR_DOM_QUAD | PWR_DOM_LINK | PWR_DOM_FAR | THERM_ZONE_TEMP
  | THERM_ZONE_VALID | THERM_ZONE_IGNORED | THERM_ZONE_TICK | THERM_NOW | THERM_FLAG_COUNT | THERM_TRIP_DIE
  | THERM_TRIP_DRAM | RST_CTL_WARM | RST_CAUSE_POR | RST_CAUSE_MRST | RST_CAUSE_SOFT | RST_CAUSE_TIMEOUT
  | RST_CAUSE_MNSAVE | RST_START_FAILS | RST_START_LASTMS | RST_MODE_TWILIGHT | RST_MODE_TEST | RST_PART_MASK
  | RST_PART_GO | RST_PART_BUSY | RST_UNIT_CLASS | RST_UNIT_INST | RST_UNIT_GO | RST_UNIT_BUSY
  | RST_UNIT_REFUSED | RST_ISO_COUNT
  deriving DecidableEq, Repr

/-- What a register table says of a field: bit range, access type, value after cold reset (0 where the table computes it). -/
structure FldInfo where
  hi : Nat
  lo : Nat
  access : Access
  reset : Nat
  deriving DecidableEq, Repr

/-- The bit range, access and reset column of each field's row. -/
def Fld.info : Fld → FldInfo
  | .GLOBAL_ID_VENDOR => ⟨15, 0, .ro, 0x1d7a⟩
  | .GLOBAL_ID_DEVICE => ⟨31, 16, .ro, 0xc12⟩
  | .GLOBAL_REV_STEP => ⟨7, 0, .ro, 0x10⟩
  | .GLOBAL_REV_ROM => ⟨23, 8, .ro, 0x100⟩
  | .GLOBAL_REV_OPTVALID => ⟨24, 24, .ro, 0⟩
  | .GLOBAL_BLOCK_NUM => ⟨9, 0, .rwl, 0x3ff⟩
  | .GLOBAL_BLOCK_LOCK => ⟨31, 31, .w1s, 0⟩
  | .GLOBAL_BADACC_COUNT => ⟨31, 0, .rc, 0⟩
  | .TIME_NOW_NS => ⟨63, 0, .ro, 0⟩
  | .TIME_TICK_TICK => ⟨47, 0, .ro, 0⟩
  | .TIME_SET_NS => ⟨63, 0, .rw, 0⟩
  | .TIME_CTL_LOAD => ⟨0, 0, .wo, 0⟩
  | .TIME_CTL_ROLE => ⟨2, 1, .rw, 0⟩
  | .TIME_SYNC_STATE => ⟨1, 0, .ro, 0⟩
  | .TIME_SYNC_PORT => ⟨7, 4, .ro, 0⟩
  | .TIME_SYNC_OFFSET => ⟨31, 16, .ro, 0⟩
  | .TIME_SYNC_LOCKLOSS => ⟨47, 32, .rc, 0⟩
  | .TIME_SYNC_HELD => ⟨63, 48, .rc, 0⟩
  | .TIME_SCHED_OVERRUN => ⟨15, 0, .rc, 0⟩
  | .TIME_SCHED_ONDEMAND => ⟨31, 16, .rc, 0⟩
  | .TIME_SCHED_LASTTAG => ⟨63, 32, .ro, 0⟩
  | .TIME_REFR_HOT => ⟨11, 0, .ro, 0⟩
  | .TIME_REFR_REALIGN => ⟨27, 16, .w1c, 0⟩
  | .TIME_ENV_IN => ⟨0, 0, .ro, 1⟩
  | .TIME_ENV_THROTTLE => ⟨8, 8, .w1c, 0⟩
  | .TIME_ENV_PGUARD => ⟨9, 9, .w1c, 0⟩
  | .TIME_ENV_FEC => ⟨10, 10, .w1c, 0⟩
  | .TIME_ENV_UE => ⟨11, 11, .w1c, 0⟩
  | .TIME_ENV_PREEMPT => ⟨12, 12, .w1c, 0⟩
  | .TIME_ENV_ASAP => ⟨13, 13, .w1c, 0⟩
  | .TIME_ENV_NEIGHBOUR => ⟨14, 14, .w1c, 0⟩
  | .TIME_ENV_COUNT => ⟨31, 16, .rc, 0⟩
  | .TIME_ENVLAST_TICK => ⟨47, 0, .ro, 0⟩
  | .TIME_ENVLAST_CAUSE => ⟨54, 48, .ro, 0⟩
  | .SEQR_QBASE_ADDR => ⟨47, 0, .rwl, 0⟩
  | .SEQR_QSIZE_LOG2 => ⟨4, 0, .rwl, 0⟩
  | .SEQR_QHEAD_HEAD => ⟨15, 0, .rwl, 0⟩
  | .SEQR_QTAIL_TAIL => ⟨15, 0, .rw, 0⟩
  | .SEQR_CRBASE_ADDR => ⟨47, 0, .rwl, 0⟩
  | .SEQR_QTBASE_TICK => ⟨47, 0, .rw, 0⟩
  | .SEQR_QSTAT_HALTED => ⟨0, 0, .ro, 0⟩
  | .SEQR_QSTAT_EMPTY => ⟨1, 1, .ro, 1⟩
  | .SEQR_QSTAT_LASTST => ⟨15, 8, .ro, 0⟩
  | .SEQR_QSTAT_LASTTAG => ⟨63, 32, .ro, 0⟩
  | .SEQR_QCTL_ENABLE => ⟨0, 0, .rw, 0⟩
  | .SEQR_QCTL_RESUME => ⟨1, 1, .wo, 0⟩
  | .SEQR_QDONE_COUNT => ⟨47, 0, .ro, 0⟩
  | .SEQR_EVRAISE_EVENT => ⟨7, 0, .wo, 0⟩
  | .SEQR_PARAM_VALUE => ⟨63, 0, .rw, 0⟩
  | .SEQR_EVC_COUNT => ⟨47, 0, .ro, 0⟩
  | .TRACE_CTL_EN => ⟨0, 0, .rw, 0⟩
  | .TRACE_CTL_WRAP => ⟨1, 1, .rw, 0⟩
  | .TRACE_CTL_PMASK => ⟨31, 16, .rw, 0xffff⟩
  | .TRACE_CTL_KMASK => ⟨36, 32, .rw, 0x1f⟩
  | .TRACE_BASE_ADDR => ⟨47, 0, .rwl, 0⟩
  | .TRACE_SIZE_LOG2 => ⟨4, 0, .rwl, 0xa⟩
  | .TRACE_WP_INDEX => ⟨31, 0, .ro, 0⟩
  | .TRACE_DROP_COUNT => ⟨31, 0, .rc, 0⟩
  | .CORE_ID_PHYS => ⟨7, 0, .ro, 0⟩
  | .CORE_ID_ROW => ⟨10, 8, .ro, 0⟩
  | .CORE_ID_COL => ⟨15, 12, .ro, 0⟩
  | .CORE_ID_DIE => ⟨16, 16, .ro, 0⟩
  | .CORE_MAP_STATE => ⟨1, 0, .ro, 0⟩
  | .CORE_MAP_LOGICAL => ⟨15, 8, .ro, 0⟩
  | .CORE_MAP_PART => ⟨19, 16, .ro, 0⟩
  | .CORE_MAP_GROUP => ⟨21, 20, .ro, 0⟩
  | .CORE_MAP_INGROUP => ⟨22, 22, .ro, 0⟩
  | .CORE_MAP_RETIRE => ⟨24, 24, .w1s, 0⟩
  | .CORE_CTL_ABFT => ⟨0, 0, .rw, 1⟩
  | .CORE_WDOG_LIMIT => ⟨15, 0, .rw, 0xffff⟩
  | .CORE_STAT_RUN => ⟨0, 0, .ro, 0⟩
  | .CORE_STAT_TRAPPED => ⟨1, 1, .ro, 0⟩
  | .CORE_STAT_PC => ⟨27, 16, .ro, 0⟩
  | .CORE_STAT_LASTFK => ⟨39, 32, .ro, 0⟩
  | .CORE_QSTAT_QFULL => ⟨31, 0, .ro, 0⟩
  | .CORE_QSTAT_QEMPTY => ⟨63, 32, .ro, 0xffffffff⟩
  | .CORE_ISTAT_CECOUNT => ⟨15, 0, .rc, 0⟩
  | .CORE_ISTAT_UEBUNDLE => ⟨27, 16, .ro, 0⟩
  | .CORE_ISTAT_UEVALID => ⟨31, 31, .w1c, 0⟩
  | .CORE_IFILL_SRC => ⟨20, 0, .rw, 0⟩
  | .CORE_IFILL_DST => ⟨43, 32, .rw, 0⟩
  | .CORE_IFILL_COUNT => ⟨56, 44, .rw, 0⟩
  | .CORE_IFILL_GO => ⟨63, 63, .wo, 0⟩
  | .CORE_IFILLST_BUSY => ⟨0, 0, .ro, 0⟩
  | .CORE_IFILLST_DONE => ⟨1, 1, .w1c, 0⟩
  | .CORE_IFILLST_REFUSED => ⟨2, 2, .w1c, 0⟩
  | .CORE_PROG_VALUE => ⟨47, 0, .ro, 0⟩
  | .CORE_CSECC_CECOUNT => ⟨15, 0, .rc, 0⟩
  | .CORE_CSECC_UECOUNT => ⟨31, 16, .rc, 0⟩
  | .CORE_ISSUED_COUNT => ⟨47, 0, .rc, 0⟩
  | .CORE_STALLED_COUNT => ⟨47, 0, .rc, 0⟩
  | .CORE_ABFT_COUNT => ⟨15, 0, .rc, 0⟩
  | .SEC_DNEW_WORD => ⟨63, 0, .rw, 0⟩
  | .SEC_DCTL_CREATE => ⟨0, 0, .wo, 0⟩
  | .SEC_DCTL_DESTROY => ⟨1, 1, .wo, 0⟩
  | .SEC_DCTL_TARGET => ⟨63, 32, .rw, 0⟩
  | .SEC_DRES_BUSY => ⟨0, 0, .ro, 0⟩
  | .SEC_DRES_STATUS => ⟨15, 8, .ro, 0⟩
  | .SEC_DRES_HANDLE => ⟨63, 32, .ro, 0⟩
  | .SEC_DSTAT_LIVE => ⟨12, 0, .ro, 0⟩
  | .SEC_DSTAT_DRAINING => ⟨28, 16, .ro, 0⟩
  | .SEC_ALLOC_BASE => ⟨47, 0, .rwl, 0⟩
  | .SEC_ALLOC_READ => ⟨48, 48, .rwl, 0⟩
  | .SEC_ALLOC_WRITE => ⟨49, 49, .rwl, 0⟩
  | .SEC_ALLOC_LEN => ⟨47, 0, .rwl, 0⟩
  | .SEC_ALLOC_REFS => ⟨60, 48, .ro, 0⟩
  | .STACK_ID_NUM => ⟨3, 0, .ro, 0⟩
  | .STACK_ID_DIE => ⟨4, 4, .ro, 0⟩
  | .STACK_ID_STATE => ⟨9, 8, .ro, 0⟩
  | .STACK_SEQ_RUNNING => ⟨15, 0, .ro, 0⟩
  | .STACK_SEQ_INFLIGHT => ⟨24, 16, .ro, 0⟩
  | .STACK_SEQ_QPWR => ⟨35, 32, .ro, 0⟩
  | .STACK_TEMP_HOT => ⟨0, 0, .ro, 0⟩
  | .STACK_TEMP_THROT => ⟨1, 1, .ro, 0⟩
  | .STACK_TEMP_LEVEL => ⟨5, 4, .rw, 0⟩
  | .STACK_TEMP_COUNT => ⟨31, 16, .rc, 0⟩
  | .STACK_THROTCYC_COUNT => ⟨47, 0, .rc, 0⟩
  | .STACK_ACC_HOLDMAX => ⟨15, 0, .rc, 0⟩
  | .STACK_ACC_HOSTDEFER => ⟨47, 16, .rc, 0⟩
  | .STACK_WMSTAT_WRITTEN => ⟨25, 0, .ro, 0⟩
  | .STACK_WMSTAT_MERGES => ⟨63, 32, .rc, 0⟩
  | .STACK_FORGET_BASE => ⟨24, 0, .rw, 0⟩
  | .STACK_FORGET_LEN => ⟨25, 0, .rw, 0⟩
  | .STACK_FORGET_GO => ⟨63, 63, .wo, 0⟩
  | .STACK_FORGETST_BUSY => ⟨0, 0, .ro, 0⟩
  | .STACK_FORGETST_DONE => ⟨1, 1, .w1c, 0⟩
  | .STACK_FORGETST_REFUSED => ⟨2, 2, .w1c, 0⟩
  | .STACK_BUSY_BANKS => ⟨63, 0, .ro, 0⟩
  | .STACK_QBUSY_QUAD => ⟨3, 0, .ro, 0⟩
  | .STACK_OFFLINE_BANKS => ⟨63, 0, .ro, 0⟩
  | .SEC_POOL_CFG_ENABLE => ⟨0, 0, .rw, 0⟩
  | .SEC_POOL_CFG_LOG2 => ⟨12, 8, .rwl, 0xa⟩
  | .SEC_POOL_RING_ADDR => ⟨47, 0, .rwl, 0⟩
  | .SEC_POOL_COUNT_FREE => ⟨22, 0, .ro, 0⟩
  | .SEC_POOL_RESERVE_PAGES => ⟨22, 0, .rw, 0⟩
  | .SEC_POOL_LOW_LEVEL => ⟨22, 0, .rw, 0⟩
  | .SEC_POOL_LOW_EVENT => ⟨31, 24, .rw, 0⟩
  | .SEC_POOL_LOW_HIT => ⟨32, 32, .w1c, 0⟩
  | .SEC_POOL_ADD_FIRST => ⟨21, 0, .rw, 0⟩
  | .SEC_POOL_ADD_COUNT => ⟨46, 24, .rw, 0⟩
  | .SEC_POOL_ADD_GO => ⟨63, 63, .wo, 0⟩
  | .SEC_POOL_ADDST_BUSY => ⟨0, 0, .ro, 0⟩
  | .SEC_POOL_ADDST_DONE => ⟨1, 1, .w1c, 0⟩
  | .SEC_POOL_ADDST_REFUSED => ⟨2, 2, .w1c, 0⟩
  | .SEC_POOL_FAIL_COUNT => ⟨31, 0, .rc, 0⟩
  | .SEQR_STEP_NUM => ⟨47, 0, .ro, 0⟩
  | .SEQR_STEP_OPEN => ⟨48, 48, .ro, 0⟩
  | .SEQR_STEP_ALT => ⟨49, 49, .ro, 0⟩
  | .SEQR_STEP_START => ⟨47, 0, .ro, 0⟩
  | .SEQR_STEP_DEADLINE => ⟨47, 0, .ro, 0⟩
  | .SEQR_STEP_ABANDON => ⟨63, 48, .rc, 0⟩
  | .SEQR_MON_EWF => ⟨7, 0, .rw, 0⟩
  | .SEQR_MON_WARNEV => ⟨15, 8, .rw, 0⟩
  | .SEQR_MON_MISSEV => ⟨23, 16, .rw, 0⟩
  | .SEQR_MON_DECAY => ⟨24, 24, .rw, 0⟩
  | .SEQR_MON_WARNCOUNT => ⟨47, 32, .rc, 0⟩
  | .SEQR_MON_MISSCOUNT => ⟨63, 48, .rc, 0⟩
  | .SEQR_MON_LASTCK => ⟨31, 0, .ro, 0⟩
  | .SEQR_MON_LASTCKTAG => ⟨63, 32, .ro, 0⟩
  | .SEQR_ACT_ENABLE => ⟨0, 0, .rw, 0⟩
  | .SEQR_ACT_TRIG => ⟨2, 1, .rw, 0⟩
  | .SEQR_ACT_KIND => ⟨3, 3, .rw, 0⟩
  | .SEQR_ACT_BMASK => ⟨19, 4, .rw, 0⟩
  | .SEQR_ACT_SHEDADD => ⟨22, 20, .rw, 0⟩
  | .SEQR_ACT_PMIN => ⟨31, 24, .rw, 0⟩
  | .SEQR_ACT_AREG => ⟨37, 32, .rw, 0⟩
  | .SEQR_ACTVAL_VALUE => ⟨63, 0, .rw, 0⟩
  | .SEQR_BOUND_LEN => ⟨31, 0, .rw, 0⟩
  | .SEQR_WL_BASE => ⟨47, 0, .rw, 0⟩
  | .SEQR_IR_RATIO => ⟨15, 0, .ro, 0⟩
  | .SEQR_IR_MAX => ⟨31, 16, .rc, 0⟩
  | .SEQR_IR_REF => ⟨31, 0, .rw, 0⟩
  | .SEQR_OUT_BASE => ⟨47, 0, .rw, 0⟩
  | .SEQR_OUT_LOG2 => ⟨3, 0, .rw, 0⟩
  | .SEC_PART_CTL_ENABLE => ⟨0, 0, .rw, 0⟩
  | .SEC_PART_CTL_RESIDENT => ⟨1, 1, .ro, 0⟩
  | .SEC_PART_CWAYS_MASK => ⟨15, 0, .rw, 0⟩
  | .SEC_PART_RANGE_FIRST => ⟨15, 0, .rwl, 0⟩
  | .SEC_PART_RANGE_COUNT => ⟨32, 16, .rwl, 0⟩
  | .SEC_PART_SAVE_BASE => ⟨47, 0, .rwl, 0⟩
  | .SEC_PART_CG_CORES => ⟨63, 0, .rwl, 0⟩
  | .SEC_PSW_OUT => ⟨3, 0, .rw, 0⟩
  | .SEC_PSW_IN => ⟨7, 4, .rw, 0⟩
  | .SEC_PSW_GO => ⟨8, 8, .wo, 0⟩
  | .SEC_PSW_BUSY => ⟨9, 9, .ro, 0⟩
  | .SEC_PSW_REFUSED => ⟨10, 10, .w1c, 0⟩
  | .SEC_PSW_PHASE => ⟨14, 12, .ro, 0⟩
  | .SEC_PSW_LIMIT => ⟨31, 16, .rw, 0x7d0⟩
  | .SEC_PSW_FORCED => ⟨47, 32, .rc, 0⟩
  | .SEC_PSW_LASTDUR => ⟨31, 0, .ro, 0⟩
  | .LINK_ID_PORT => ⟨3, 0, .ro, 0⟩
  | .LINK_ID_DIE => ⟨4, 4, .ro, 0⟩
  | .LINK_STATE_STATE => ⟨2, 0, .ro, 0⟩
  | .LINK_STATE_NBLOCK => ⟨25, 16, .ro, 0x3ff⟩
  | .LINK_STATE_NPORT => ⟨31, 28, .ro, 0⟩
  | .LINK_STATE_FIBRE => ⟨47, 32, .ro, 0⟩
  | .LINK_CTL_ENABLE => ⟨0, 0, .rw, 1⟩
  | .LINK_CTL_HOLD => ⟨1, 1, .rw, 0⟩
  | .LINK_CTL_RETRAIN => ⟨2, 2, .wo, 0⟩
  | .LINK_TXFRAMES_COUNT => ⟨47, 0, .rc, 0⟩
  | .LINK_RXFRAMES_COUNT => ⟨47, 0, .rc, 0⟩
  | .LINK_RELAYED_COUNT => ⟨47, 0, .rc, 0⟩
  | .LINK_DISCARD_NOSERVICE => ⟨15, 0, .rc, 0⟩
  | .LINK_DISCARD_ROUTE => ⟨31, 16, .rc, 0⟩
  | .LINK_DISCARD_DOWN => ⟨47, 32, .rc, 0⟩
  | .LINK_DISCARD_STOPPED => ⟨63, 48, .rc, 0⟩
  | .LINK_FEC_CORR => ⟨31, 0, .rc, 0⟩
  | .LINK_FEC_FAIL => ⟨47, 32, .rc, 0⟩
  | .LINK_AUTH_FAIL => ⟨15, 0, .rc, 0⟩
  | .LINK_STOP_SRC => ⟨9, 0, .ro, 0⟩
  | .LINK_STOP_PMASK => ⟨31, 16, .ro, 0⟩
  | .LINK_GCTL_REPLYLIM => ⟨23, 0, .rw, 0x3e8⟩
  | .LINK_GCTL_LATEREP => ⟨47, 32, .rc, 0⟩
  | .LINK_PAIR_ENABLE => ⟨0, 0, .rw, 0⟩
  | .LINK_PAIR_WRITE => ⟨1, 1, .rw, 1⟩
  | .LINK_PAIR_PORT => ⟨7, 4, .rwl, 0⟩
  | .LINK_PAIR_STATE => ⟨10, 8, .ro, 0⟩
  | .LINK_PAIR_STAGE => ⟨47, 0, .rwl, 0⟩
  | .LINK_PAIR_WAIT => ⟨15, 0, .rw, 0x64⟩
  | .LINK_PAIR_GRACE => ⟨47, 16, .rw, 0x186a0⟩
  | .LINK_PAIR_MISMATCH => ⟨15, 0, .rc, 0⟩
  | .LINK_PAIR_LOST => ⟨31, 16, .rc, 0⟩
  | .LINK_PAIR_LASTSTEP => ⟨47, 0, .ro, 0⟩
  | .UCIE_STAT_MODS => ⟨3, 0, .ro, 0⟩
  | .UCIE_STAT_RATE => ⟨5, 4, .ro, 0⟩
  | .UCIE_STAT_FLIT => ⟨6, 6, .ro, 0⟩
  | .UCIE_STAT_HDMCOMMIT => ⟨7, 7, .ro, 0⟩
  | .UCIE_MOD_STATE => ⟨1, 0, .ro, 0⟩
  | .UCIE_MOD_REPAIRED => ⟨15, 8, .ro, 0⟩
  | .UCIE_ERR_RETRY => ⟨31, 0, .rc, 0⟩
  | .UCIE_ERR_CRC => ⟨63, 32, .rc, 0⟩
  | .UCIE_CREDSTALL_NS => ⟨47, 0, .rc, 0⟩
  | .UCIE_POISON_COUNT => ⟨31, 0, .rc, 0⟩
  | .FARCXL_CTL_ENABLE => ⟨0, 0, .rw, 0⟩
  | .FARCXL_CTL_BIF => ⟨2, 1, .rwl, 0⟩
  | .FARCXL_CTL_TIMEOUT => ⟨31, 16, .rw, 0x3e8⟩
  | .FARCXL_STAT_STATE => ⟨1, 0, .ro, 0⟩
  | .FARCXL_STAT_GIB => ⟨28, 16, .ro, 0⟩
  | .FARCXL_EXP_STATE => ⟨2, 0, .ro, 0⟩
  | .FARCXL_EXP_WIDTH => ⟨8, 4, .ro, 0⟩
  | .FARCXL_EXP_RATE => ⟨10, 9, .ro, 0⟩
  | .FARCXL_EXP_GIB => ⟨28, 16, .ro, 0⟩
  | .FARCXL_EXP_BASE => ⟨44, 32, .ro, 0⟩
  | .FARCXL_SEALTAB_BASE => ⟨47, 0, .rwl, 0⟩
  | .FARCXL_SEALTAB_SLOTS => ⟨29, 0, .rwl, 0⟩
  | .FARCXL_ERR_AUTH => ⟨15, 0, .rc, 0⟩
  | .FARCXL_ERR_POISON => ⟨31, 16, .rc, 0⟩
  | .FARCXL_ERR_TIMEOUT => ⟨47, 32, .rc, 0⟩
  | .FARCXL_TRAFFIC_RMW => ⟨47, 0, .rc, 0⟩
  | .FAULT_CFG_LOCKSTEP => ⟨0, 0, .rwl, 1⟩
  | .FAULT_CFG_DIAGEN => ⟨1, 1, .rwl, 1⟩
  | .FAULT_CFG_CETHRESH => ⟨15, 8, .rw, 0x10⟩
  | .FAULT_CFG_DIAGPER => ⟨25, 16, .rwl, 0x1f4⟩
  | .FAULT_CFG_LOCK => ⟨31, 31, .w1s, 0⟩
  | .FAULT_STATUS_GUAR => ⟨0, 0, .ro, 1⟩
  | .FAULT_STATUS_HALT => ⟨1, 1, .ro, 0⟩
  | .FAULT_STATUS_CACHEBYP => ⟨3, 2, .ro, 0⟩
  | .FAULT_STATUS_OPEN => ⟨31, 16, .ro, 0⟩
  | .FAULT_ACK_PART => ⟨3, 0, .wo, 0⟩
  | .FAULT_ACK_GO => ⟨8, 8, .wo, 0⟩
  | .FAULT_STOP_STOPPED => ⟨15, 0, .w1c, 0⟩
  | .FAULT_RETIRE_KIND => ⟨1, 0, .rw, 0⟩
  | .FAULT_RETIRE_STACK => ⟨7, 4, .rw, 0⟩
  | .FAULT_RETIRE_BANK => ⟨16, 8, .rw, 0⟩
  | .FAULT_RETIRE_ROW => ⟨31, 17, .rw, 0⟩
  | .FAULT_RETIRE_GO => ⟨63, 63, .wo, 0⟩
  | .FAULT_RETST_BUSY => ⟨0, 0, .ro, 0⟩
  | .FAULT_RETST_DONE => ⟨1, 1, .w1c, 0⟩
  | .FAULT_RETST_REFUSED => ⟨2, 2, .w1c, 0⟩
  | .FAULT_RETST_SPARES => ⟨13, 8, .ro, 0x20⟩
  | .FAULT_SELF_GO => ⟨0, 0, .wo, 0⟩
  | .FAULT_SELF_BUSY => ⟨1, 1, .ro, 0⟩
  | .FAULT_SELF_RESULT => ⟨3, 2, .ro, 0⟩
  | .FAULT_SELF_LASTDUR => ⟨63, 32, .ro, 0⟩
  | .FAULT_INJ_ADDR => ⟨47, 0, .rw, 0⟩
  | .FAULT_INJ_SYMS => ⟨49, 48, .rw, 0⟩
  | .FAULT_INJ_ARM => ⟨63, 63, .w1s, 0⟩
  | .FAULT_ELOGWP_INDEX => ⟨31, 0, .ro, 0⟩
  | .FAULT_CNT_CE => ⟨31, 0, .rc, 0⟩
  | .FAULT_CNT_UE => ⟨47, 32, .rc, 0⟩
  | .FAULT_CNT_OFFWR => ⟨63, 48, .rc, 0⟩
  | .FAULT_REC_LO => ⟨63, 0, .ro, 0⟩
  | .FAULT_REC_HI => ⟨63, 0, .ro, 0⟩
  | .FAULT_REC_FIRST => ⟨47, 0, .ro, 0⟩
  | .FAULT_REC_LAST => ⟨47, 0, .ro, 0⟩
  | .FAULT_PCFG_EVENT => ⟨7, 0, .rw, 0⟩
  | .FAULT_PCFG_EVEN => ⟨8, 8, .rw, 0⟩
  | .FAULT_PCFG_MERGED => ⟨31, 16, .rc, 0⟩
  | .FAULT_ELOG_LO => ⟨63, 0, .ro, 0⟩
  | .FAULT_ELOG_HI => ⟨63, 0, .ro, 0⟩
  | .FAULT_WREG_BASE => ⟨47, 0, .rwl, 0⟩
  | .FAULT_WREG_VALID => ⟨63, 63, .rw, 0⟩
  | .FAULT_WREG_LEN => ⟨39, 0, .rwl, 0⟩
  | .FAULT_WREG_PLANES => ⟨3, 0, .rwl, 0⟩
  | .FAULT_WREG_ARR => ⟨4, 4, .rwl, 0⟩
  | .FAULT_WREG_PSTRIDE => ⟨55, 16, .rwl, 0⟩
  | .FAULT_WREG_MIRROR => ⟨47, 0, .rwl, 0⟩
  | .SEC_BOOT_ADDR => ⟨47, 0, .rwl, 0⟩
  | .SEC_BOOT_LEN => ⟨22, 0, .rwl, 0⟩
  | .SEC_BOOT_GO => ⟨63, 63, .wo, 0⟩
  | .SEC_BOOT_STATE => ⟨2, 0, .ro, 0⟩
  | .SEC_BOOT_STATUS => ⟨15, 8, .ro, 0⟩
  | .SEC_BOOT_SVN => ⟨23, 16, .ro, 0⟩
  | .SEC_BOOT_STARTED => ⟨32, 32, .w1s, 0⟩
  | .SEC_ARB_COUNT => ⟨7, 0, .ro, 0⟩
  | .SEC_ARB_ADVANCE => ⟨23, 16, .wo, 0⟩
  | .SEC_IDKEY_WORD => ⟨63, 0, .ro, 0⟩
  | .SEC_OPT_OFFSET => ⟨15, 0, .rw, 0⟩
  | .SEC_OPT_LEN => ⟨31, 16, .rw, 0⟩
  | .SEC_OPT_GO => ⟨63, 63, .wo, 0⟩
  | .SEC_OPT_SRC => ⟨47, 0, .rw, 0⟩
  | .SEC_OPTST_BUSY => ⟨0, 0, .ro, 0⟩
  | .SEC_OPTST_STATUS => ⟨15, 8, .ro, 0⟩
  | .SEC_OPTST_OWNED => ⟨16, 16, .ro, 0⟩
  | .SEC_DENY_COUNT => ⟨31, 0, .rc, 0⟩
  | .SEC_LOCK_DOWN => ⟨0, 0, .ro, 0⟩
  | .SEC_KEYST_VALID => ⟨0, 0, .ro, 0⟩
  | .SEC_KEYST_PART => ⟨7, 4, .ro, 0⟩
  | .SEC_KEYST_PEER => ⟨25, 16, .ro, 0⟩
  | .SEC_KEYST_PPART => ⟨31, 28, .ro, 0⟩
  | .SEC_TENANT_CTL_SEALED => ⟨0, 0, .w1s, 0⟩
  | .SEC_TENANT_CTL_RINGKEY => ⟨1, 1, .ro, 0⟩
  | .SEC_TENANT_CTL_FARKEY => ⟨2, 2, .ro, 0⟩
  | .SEC_TENANT_CTL_IMPKEY => ⟨3, 3, .ro, 0⟩
  | .SEC_TENANT_TKEY => ⟨63, 0, .rwl, 0⟩
  | .SEC_TENANT_WMEAS_BASE => ⟨47, 0, .rw, 0⟩
  | .SEC_TENANT_WMEAS_LEN => ⟨39, 0, .rw, 0⟩
  | .SEC_TENANT_WMEASCTL_GO => ⟨0, 0, .wo, 0⟩
  | .SEC_TENANT_WMEASCTL_BUSY => ⟨1, 1, .ro, 0⟩
  | .SEC_TENANT_WMEASCTL_STATUS => ⟨15, 8, .ro, 0⟩
  | .SEC_TENANT_WMEASCTL_LEAVES => ⟨63, 32, .ro, 0⟩
  | .SEC_TENANT_IMPORT_SRC => ⟨47, 0, .rw, 0⟩
  | .SEC_TENANT_IMPORT_DST => ⟨47, 0, .rw, 0⟩
  | .SEC_TENANT_IMPORT_LEN => ⟨39, 0, .rw, 0⟩
  | .SEC_TENANT_IMPORT_GO => ⟨63, 63, .wo, 0⟩
  | .SEC_TENANT_IMPORTST_BUSY => ⟨0, 0, .ro, 0⟩
  | .SEC_TENANT_IMPORTST_STATUS => ⟨15, 8, .ro, 0⟩
  | .SEC_TENANT_IMPORTST_CHUNKS => ⟨63, 32, .ro, 0⟩
  | .PWR_STATE_CUR => ⟨1, 0, .ro, 0⟩
  | .PWR_STATE_MOVING => ⟨2, 2, .ro, 0⟩
  | .PWR_STATE_DAWNSTAGE => ⟨6, 4, .ro, 0⟩
  | .PWR_REQ_TARGET => ⟨1, 0, .rw, 0⟩
  | .PWR_REQ_GO => ⟨8, 8, .wo, 0⟩
  | .PWR_WAKE_AT => ⟨47, 0, .rw, 0⟩
  | .PWR_WAKE_PIN => ⟨48, 48, .rw, 1⟩
  | .PWR_CFG_RELAYWIN => ⟨23, 0, .rw, 0x2710⟩
  | .PWR_VETO_PART => ⟨15, 0, .rw, 0⟩
  | .PWR_REFUSE_COUNT => ⟨31, 0, .rc, 0⟩
  | .PWR_LASTREF_CLASS => ⟨3, 0, .ro, 0⟩
  | .PWR_LASTREF_INST => ⟨15, 8, .ro, 0⟩
  | .PWR_LASTREF_TARGET => ⟨17, 16, .ro, 0⟩
  | .PWR_LASTREF_TICK => ⟨47, 0, .ro, 0⟩
  | .PWR_ASSIST_CSIS => ⟨1, 0, .ro, 0⟩
  | .PWR_ASSIST_CACHE => ⟨3, 2, .ro, 0⟩
  | .PWR_ASSIST_CTRL => ⟨5, 4, .ro, 0⟩
  | .PWR_GUARD_LIMIT => ⟨11, 0, .rw, 0x640⟩
  | .PWR_GUARD_RELEASE => ⟨27, 16, .rw, 0x5dc⟩
  | .PWR_GUARD_COUNT => ⟨47, 32, .rc, 0⟩
  | .PWR_GUARD_ACTIVE => ⟨48, 48, .ro, 0⟩
  | .PWR_EXIT_LASTUS => ⟨31, 0, .ro, 0⟩
  | .PWR_MNSAVE_BASE => ⟨47, 0, .rwl, 0⟩
  | .PWR_DOM_CORE => ⟨63, 0, .ro, 0⟩
  | .PWR_DOM_QUAD => ⟨47, 0, .ro, 0⟩
  | .PWR_DOM_LINK => ⟨15, 0, .ro, 0⟩
  | .PWR_DOM_FAR => ⟨16, 16, .ro, 0⟩
  | .THERM_ZONE_TEMP => ⟨15, 0, .ro, 0x7fff⟩
  | .THERM_ZONE_VALID => ⟨16, 16, .ro, 0⟩
  | .THERM_ZONE_IGNORED => ⟨23, 20, .ro, 0⟩
  | .THERM_ZONE_TICK => ⟨63, 32, .ro, 0⟩
  | .THERM_NOW => ⟨63, 0, .ro, 0⟩
  | .THERM_FLAG_COUNT => ⟨15, 0, .rc, 0⟩
  | .THERM_TRIP_DIE => ⟨1, 0, .ro, 0⟩
  | .THERM_TRIP_DRAM => ⟨13, 2, .ro, 0⟩
  | .RST_CTL_WARM => ⟨0, 0, .wo, 0⟩
  | .RST_CAUSE_POR => ⟨0, 0, .ro, 0⟩
  | .RST_CAUSE_MRST => ⟨1, 1, .ro, 0⟩
  | .RST_CAUSE_SOFT => ⟨2, 2, .ro, 0⟩
  | .RST_CAUSE_TIMEOUT => ⟨3, 3, .ro, 0⟩
  | .RST_CAUSE_MNSAVE => ⟨4, 4, .ro, 0⟩
  | .RST_START_FAILS => ⟨1, 0, .ro, 0⟩
  | .RST_START_LASTMS => ⟨31, 16, .ro, 0⟩
  | .RST_MODE_TWILIGHT => ⟨0, 0, .ro, 0⟩
  | .RST_MODE_TEST => ⟨1, 1, .w1s, 0⟩
  | .RST_PART_MASK => ⟨15, 0, .rw, 0⟩
  | .RST_PART_GO => ⟨16, 16, .wo, 0⟩
  | .RST_PART_BUSY => ⟨17, 17, .ro, 0⟩
  | .RST_UNIT_CLASS => ⟨3, 0, .rw, 0⟩
  | .RST_UNIT_INST => ⟨15, 8, .rw, 0⟩
  | .RST_UNIT_GO => ⟨16, 16, .wo, 0⟩
  | .RST_UNIT_BUSY => ⟨17, 17, .ro, 0⟩
  | .RST_UNIT_REFUSED => ⟨18, 18, .w1c, 0⟩
  | .RST_ISO_COUNT => ⟨31, 0, .rc, 0⟩

/-- A 64-bit register word of the control space, with up to two indices: index (i, j) stands at offset base + i × s1 + j × s2. -/
structure WordInfo where
  base : Nat
  n1 : Nat
  s1 : Nat
  n2 : Nat
  s2 : Nat
  flds : List Fld
  deriving DecidableEq, Repr

/-- The words of the GLOBAL region. -/
def wordsGlobal : List WordInfo := [
  ⟨0x00000000, 1, 0x0, 1, 0x0, [.GLOBAL_ID_VENDOR, .GLOBAL_ID_DEVICE]⟩,
  ⟨0x00000008, 1, 0x0, 1, 0x0, [.GLOBAL_REV_STEP, .GLOBAL_REV_ROM, .GLOBAL_REV_OPTVALID]⟩,
  ⟨0x00000010, 1, 0x0, 1, 0x0, [.GLOBAL_BLOCK_NUM, .GLOBAL_BLOCK_LOCK]⟩,
  ⟨0x00000018, 1, 0x0, 1, 0x0, [.GLOBAL_BADACC_COUNT]⟩]

/-- The words of the TIME region. -/
def wordsTime : List WordInfo := [
  ⟨0x00100000, 1, 0x0, 1, 0x0, [.TIME_NOW_NS]⟩,
  ⟨0x00100008, 1, 0x0, 1, 0x0, [.TIME_TICK_TICK]⟩,
  ⟨0x00100010, 1, 0x0, 1, 0x0, [.TIME_SET_NS]⟩,
  ⟨0x00100018, 1, 0x0, 1, 0x0, [.TIME_CTL_LOAD, .TIME_CTL_ROLE]⟩,
  ⟨0x00100020, 1, 0x0, 1, 0x0, [.TIME_SYNC_STATE, .TIME_SYNC_PORT, .TIME_SYNC_OFFSET, .TIME_SYNC_LOCKLOSS, .TIME_SYNC_HELD]⟩,
  ⟨0x00100028, 1, 0x0, 1, 0x0, [.TIME_SCHED_OVERRUN, .TIME_SCHED_ONDEMAND, .TIME_SCHED_LASTTAG]⟩,
  ⟨0x00100030, 1, 0x0, 1, 0x0, [.TIME_REFR_HOT, .TIME_REFR_REALIGN]⟩,
  ⟨0x00100100, 16, 0x10, 1, 0x0, [.TIME_ENV_IN, .TIME_ENV_THROTTLE, .TIME_ENV_PGUARD, .TIME_ENV_FEC, .TIME_ENV_UE, .TIME_ENV_PREEMPT, .TIME_ENV_ASAP, .TIME_ENV_NEIGHBOUR, .TIME_ENV_COUNT]⟩,
  ⟨0x00100108, 16, 0x10, 1, 0x0, [.TIME_ENVLAST_TICK, .TIME_ENVLAST_CAUSE]⟩]

/-- The words of the SEQR region. -/
def wordsSeqr : List WordInfo := [
  ⟨0x00200000, 16, 0x10000, 20, 0x40, [.SEQR_QBASE_ADDR]⟩,
  ⟨0x00200008, 16, 0x10000, 20, 0x40, [.SEQR_QSIZE_LOG2]⟩,
  ⟨0x00200010, 16, 0x10000, 20, 0x40, [.SEQR_QHEAD_HEAD]⟩,
  ⟨0x00200018, 16, 0x10000, 20, 0x40, [.SEQR_QTAIL_TAIL]⟩,
  ⟨0x00200020, 16, 0x10000, 20, 0x40, [.SEQR_CRBASE_ADDR]⟩,
  ⟨0x00200028, 16, 0x10000, 20, 0x40, [.SEQR_QTBASE_TICK]⟩,
  ⟨0x00200030, 16, 0x10000, 20, 0x40, [.SEQR_QSTAT_HALTED, .SEQR_QSTAT_EMPTY, .SEQR_QSTAT_LASTST, .SEQR_QSTAT_LASTTAG]⟩,
  ⟨0x00200038, 16, 0x10000, 20, 0x40, [.SEQR_QCTL_ENABLE, .SEQR_QCTL_RESUME]⟩,
  ⟨0x00200800, 16, 0x10000, 20, 0x8, [.SEQR_QDONE_COUNT]⟩,
  ⟨0x00200900, 16, 0x10000, 1, 0x0, [.SEQR_EVRAISE_EVENT]⟩,
  ⟨0x00201000, 16, 0x10000, 64, 0x8, [.SEQR_PARAM_VALUE]⟩,
  ⟨0x00202000, 16, 0x10000, 256, 0x8, [.SEQR_EVC_COUNT]⟩,
  ⟨0x00203000, 16, 0x10000, 1, 0x0, [.SEQR_STEP_NUM, .SEQR_STEP_OPEN, .SEQR_STEP_ALT]⟩,
  ⟨0x00203008, 16, 0x10000, 1, 0x0, [.SEQR_STEP_START]⟩,
  ⟨0x00203010, 16, 0x10000, 1, 0x0, [.SEQR_STEP_DEADLINE, .SEQR_STEP_ABANDON]⟩,
  ⟨0x00203018, 16, 0x10000, 1, 0x0, [.SEQR_MON_EWF, .SEQR_MON_WARNEV, .SEQR_MON_MISSEV, .SEQR_MON_DECAY, .SEQR_MON_WARNCOUNT, .SEQR_MON_MISSCOUNT]⟩,
  ⟨0x00203020, 16, 0x10000, 1, 0x0, [.SEQR_MON_LASTCK, .SEQR_MON_LASTCKTAG]⟩,
  ⟨0x00203040, 16, 0x10000, 4, 0x8, [.SEQR_ACT_ENABLE, .SEQR_ACT_TRIG, .SEQR_ACT_KIND, .SEQR_ACT_BMASK, .SEQR_ACT_SHEDADD, .SEQR_ACT_PMIN, .SEQR_ACT_AREG]⟩,
  ⟨0x00203060, 16, 0x10000, 4, 0x8, [.SEQR_ACTVAL_VALUE]⟩,
  ⟨0x00203100, 16, 0x10000, 15, 0x8, [.SEQR_BOUND_LEN]⟩,
  ⟨0x00203180, 16, 0x10000, 1, 0x0, [.SEQR_WL_BASE]⟩,
  ⟨0x00203188, 16, 0x10000, 1, 0x0, [.SEQR_IR_RATIO, .SEQR_IR_MAX]⟩,
  ⟨0x00203190, 16, 0x10000, 1, 0x0, [.SEQR_IR_REF]⟩,
  ⟨0x00203198, 16, 0x10000, 1, 0x0, [.SEQR_OUT_BASE]⟩,
  ⟨0x002031A0, 16, 0x10000, 1, 0x0, [.SEQR_OUT_LOG2]⟩]

/-- The words of the TRACE region. -/
def wordsTrace : List WordInfo := [
  ⟨0x04000000, 1, 0x0, 1, 0x0, [.TRACE_CTL_EN, .TRACE_CTL_WRAP, .TRACE_CTL_PMASK, .TRACE_CTL_KMASK]⟩,
  ⟨0x04000008, 1, 0x0, 1, 0x0, [.TRACE_BASE_ADDR]⟩,
  ⟨0x04000010, 1, 0x0, 1, 0x0, [.TRACE_SIZE_LOG2]⟩,
  ⟨0x04000018, 1, 0x0, 1, 0x0, [.TRACE_WP_INDEX]⟩,
  ⟨0x04000020, 1, 0x0, 1, 0x0, [.TRACE_DROP_COUNT]⟩]

/-- The words of the CORE region. -/
def wordsCore : List WordInfo := [
  ⟨0x01000000, 192, 0x10000, 1, 0x0, [.CORE_ID_PHYS, .CORE_ID_ROW, .CORE_ID_COL, .CORE_ID_DIE]⟩,
  ⟨0x01000008, 192, 0x10000, 1, 0x0, [.CORE_MAP_STATE, .CORE_MAP_LOGICAL, .CORE_MAP_PART, .CORE_MAP_GROUP, .CORE_MAP_INGROUP, .CORE_MAP_RETIRE]⟩,
  ⟨0x01000010, 192, 0x10000, 1, 0x0, [.CORE_CTL_ABFT]⟩,
  ⟨0x01000018, 192, 0x10000, 1, 0x0, [.CORE_WDOG_LIMIT]⟩,
  ⟨0x01000020, 192, 0x10000, 1, 0x0, [.CORE_STAT_RUN, .CORE_STAT_TRAPPED, .CORE_STAT_PC, .CORE_STAT_LASTFK]⟩,
  ⟨0x01000028, 192, 0x10000, 1, 0x0, [.CORE_QSTAT_QFULL, .CORE_QSTAT_QEMPTY]⟩,
  ⟨0x01000030, 192, 0x10000, 1, 0x0, [.CORE_ISTAT_CECOUNT, .CORE_ISTAT_UEBUNDLE, .CORE_ISTAT_UEVALID]⟩,
  ⟨0x01000038, 192, 0x10000, 1, 0x0, [.CORE_IFILL_SRC, .CORE_IFILL_DST, .CORE_IFILL_COUNT, .CORE_IFILL_GO]⟩,
  ⟨0x01000040, 192, 0x10000, 1, 0x0, [.CORE_IFILLST_BUSY, .CORE_IFILLST_DONE, .CORE_IFILLST_REFUSED]⟩,
  ⟨0x01000048, 192, 0x10000, 1, 0x0, [.CORE_PROG_VALUE]⟩,
  ⟨0x01000050, 192, 0x10000, 1, 0x0, [.CORE_CSECC_CECOUNT, .CORE_CSECC_UECOUNT]⟩,
  ⟨0x01000058, 192, 0x10000, 1, 0x0, [.CORE_ISSUED_COUNT]⟩,
  ⟨0x01000060, 192, 0x10000, 1, 0x0, [.CORE_STALLED_COUNT]⟩,
  ⟨0x01000068, 192, 0x10000, 1, 0x0, [.CORE_ABFT_COUNT]⟩]

/-- The words of the SEC region. -/
def wordsSec : List WordInfo := [
  ⟨0x00E00000, 16, 0x10000, 16, 0x8, [.SEC_DNEW_WORD]⟩,
  ⟨0x00E00080, 16, 0x10000, 1, 0x0, [.SEC_DCTL_CREATE, .SEC_DCTL_DESTROY, .SEC_DCTL_TARGET]⟩,
  ⟨0x00E00088, 16, 0x10000, 1, 0x0, [.SEC_DRES_BUSY, .SEC_DRES_STATUS, .SEC_DRES_HANDLE]⟩,
  ⟨0x00E00090, 16, 0x10000, 1, 0x0, [.SEC_DSTAT_LIVE, .SEC_DSTAT_DRAINING]⟩,
  ⟨0x00E01000, 16, 0x10000, 256, 0x10, [.SEC_ALLOC_BASE, .SEC_ALLOC_READ, .SEC_ALLOC_WRITE]⟩,
  ⟨0x00E01008, 16, 0x10000, 256, 0x10, [.SEC_ALLOC_LEN, .SEC_ALLOC_REFS]⟩,
  ⟨0x00D00000, 16, 0x10000, 12, 0x100, [.SEC_POOL_CFG_ENABLE, .SEC_POOL_CFG_LOG2]⟩,
  ⟨0x00D00008, 16, 0x10000, 12, 0x100, [.SEC_POOL_RING_ADDR]⟩,
  ⟨0x00D00010, 16, 0x10000, 12, 0x100, [.SEC_POOL_COUNT_FREE]⟩,
  ⟨0x00D00018, 16, 0x10000, 12, 0x100, [.SEC_POOL_RESERVE_PAGES]⟩,
  ⟨0x00D00020, 16, 0x10000, 12, 0x100, [.SEC_POOL_LOW_LEVEL, .SEC_POOL_LOW_EVENT, .SEC_POOL_LOW_HIT]⟩,
  ⟨0x00D00028, 16, 0x10000, 12, 0x100, [.SEC_POOL_ADD_FIRST, .SEC_POOL_ADD_COUNT, .SEC_POOL_ADD_GO]⟩,
  ⟨0x00D00030, 16, 0x10000, 12, 0x100, [.SEC_POOL_ADDST_BUSY, .SEC_POOL_ADDST_DONE, .SEC_POOL_ADDST_REFUSED]⟩,
  ⟨0x00D00038, 16, 0x10000, 12, 0x100, [.SEC_POOL_FAIL_COUNT]⟩,
  ⟨0x00C80000, 16, 0x100, 1, 0x0, [.SEC_PART_CTL_ENABLE, .SEC_PART_CTL_RESIDENT]⟩,
  ⟨0x00C80008, 16, 0x100, 1, 0x0, [.SEC_PART_CWAYS_MASK]⟩,
  ⟨0x00C80010, 16, 0x100, 1, 0x0, [.SEC_PART_RANGE_FIRST, .SEC_PART_RANGE_COUNT]⟩,
  ⟨0x00C80018, 16, 0x100, 1, 0x0, [.SEC_PART_SAVE_BASE]⟩,
  ⟨0x00C80020, 16, 0x100, 15, 0x8, [.SEC_PART_CG_CORES]⟩,
  ⟨0x00C81000, 1, 0x0, 1, 0x0, [.SEC_PSW_OUT, .SEC_PSW_IN, .SEC_PSW_GO, .SEC_PSW_BUSY, .SEC_PSW_REFUSED, .SEC_PSW_PHASE, .SEC_PSW_LIMIT, .SEC_PSW_FORCED]⟩,
  ⟨0x00C81008, 1, 0x0, 1, 0x0, [.SEC_PSW_LASTDUR]⟩,
  ⟨0x00C00000, 1, 0x0, 1, 0x0, [.SEC_BOOT_ADDR]⟩,
  ⟨0x00C00008, 1, 0x0, 1, 0x0, [.SEC_BOOT_LEN, .SEC_BOOT_GO]⟩,
  ⟨0x00C00010, 1, 0x0, 1, 0x0, [.SEC_BOOT_STATE, .SEC_BOOT_STATUS, .SEC_BOOT_SVN, .SEC_BOOT_STARTED]⟩,
  ⟨0x00C00018, 1, 0x0, 1, 0x0, [.SEC_ARB_COUNT, .SEC_ARB_ADVANCE]⟩,
  ⟨0x00C00020, 4, 0x8, 1, 0x0, [.SEC_IDKEY_WORD]⟩,
  ⟨0x00C00040, 1, 0x0, 1, 0x0, [.SEC_OPT_OFFSET, .SEC_OPT_LEN, .SEC_OPT_GO]⟩,
  ⟨0x00C00048, 1, 0x0, 1, 0x0, [.SEC_OPT_SRC]⟩,
  ⟨0x00C00050, 1, 0x0, 1, 0x0, [.SEC_OPTST_BUSY, .SEC_OPTST_STATUS, .SEC_OPTST_OWNED]⟩,
  ⟨0x00C00058, 1, 0x0, 1, 0x0, [.SEC_DENY_COUNT]⟩,
  ⟨0x00C00060, 1, 0x0, 1, 0x0, [.SEC_LOCK_DOWN]⟩,
  ⟨0x00C10000, 256, 0x8, 1, 0x0, [.SEC_KEYST_VALID, .SEC_KEYST_PART, .SEC_KEYST_PEER, .SEC_KEYST_PPART]⟩,
  ⟨0x00C20000, 16, 0x100, 1, 0x0, [.SEC_TENANT_CTL_SEALED, .SEC_TENANT_CTL_RINGKEY, .SEC_TENANT_CTL_FARKEY, .SEC_TENANT_CTL_IMPKEY]⟩,
  ⟨0x00C20008, 16, 0x100, 8, 0x8, [.SEC_TENANT_TKEY]⟩,
  ⟨0x00C20050, 16, 0x100, 4, 0x10, [.SEC_TENANT_WMEAS_BASE]⟩,
  ⟨0x00C20058, 16, 0x100, 4, 0x10, [.SEC_TENANT_WMEAS_LEN]⟩,
  ⟨0x00C20090, 16, 0x100, 1, 0x0, [.SEC_TENANT_WMEASCTL_GO, .SEC_TENANT_WMEASCTL_BUSY, .SEC_TENANT_WMEASCTL_STATUS, .SEC_TENANT_WMEASCTL_LEAVES]⟩,
  ⟨0x00C200A0, 16, 0x100, 1, 0x0, [.SEC_TENANT_IMPORT_SRC]⟩,
  ⟨0x00C200A8, 16, 0x100, 1, 0x0, [.SEC_TENANT_IMPORT_DST]⟩,
  ⟨0x00C200B0, 16, 0x100, 1, 0x0, [.SEC_TENANT_IMPORT_LEN, .SEC_TENANT_IMPORT_GO]⟩,
  ⟨0x00C200B8, 16, 0x100, 1, 0x0, [.SEC_TENANT_IMPORTST_BUSY, .SEC_TENANT_IMPORTST_STATUS, .SEC_TENANT_IMPORTST_CHUNKS]⟩]

/-- The words of the STACK region. -/
def wordsStack : List WordInfo := [
  ⟨0x02000000, 12, 0x100000, 1, 0x0, [.STACK_ID_NUM, .STACK_ID_DIE, .STACK_ID_STATE]⟩,
  ⟨0x02000008, 12, 0x100000, 1, 0x0, [.STACK_SEQ_RUNNING, .STACK_SEQ_INFLIGHT, .STACK_SEQ_QPWR]⟩,
  ⟨0x02000010, 12, 0x100000, 1, 0x0, [.STACK_TEMP_HOT, .STACK_TEMP_THROT, .STACK_TEMP_LEVEL, .STACK_TEMP_COUNT]⟩,
  ⟨0x02000018, 12, 0x100000, 1, 0x0, [.STACK_THROTCYC_COUNT]⟩,
  ⟨0x02000020, 12, 0x100000, 1, 0x0, [.STACK_ACC_HOLDMAX, .STACK_ACC_HOSTDEFER]⟩,
  ⟨0x02000028, 12, 0x100000, 1, 0x0, [.STACK_WMSTAT_WRITTEN, .STACK_WMSTAT_MERGES]⟩,
  ⟨0x02000030, 12, 0x100000, 1, 0x0, [.STACK_FORGET_BASE]⟩,
  ⟨0x02000038, 12, 0x100000, 1, 0x0, [.STACK_FORGET_LEN, .STACK_FORGET_GO]⟩,
  ⟨0x02000040, 12, 0x100000, 1, 0x0, [.STACK_FORGETST_BUSY, .STACK_FORGETST_DONE, .STACK_FORGETST_REFUSED]⟩,
  ⟨0x02000100, 12, 0x100000, 8, 0x8, [.STACK_BUSY_BANKS]⟩,
  ⟨0x02000140, 12, 0x100000, 1, 0x0, [.STACK_QBUSY_QUAD]⟩,
  ⟨0x02000180, 12, 0x100000, 8, 0x8, [.STACK_OFFLINE_BANKS]⟩]

/-- The words of the LINK region. -/
def wordsLink : List WordInfo := [
  ⟨0x03000000, 16, 0x10000, 1, 0x0, [.LINK_ID_PORT, .LINK_ID_DIE]⟩,
  ⟨0x03000008, 16, 0x10000, 1, 0x0, [.LINK_STATE_STATE, .LINK_STATE_NBLOCK, .LINK_STATE_NPORT, .LINK_STATE_FIBRE]⟩,
  ⟨0x03000010, 16, 0x10000, 1, 0x0, [.LINK_CTL_ENABLE, .LINK_CTL_HOLD, .LINK_CTL_RETRAIN]⟩,
  ⟨0x03000018, 16, 0x10000, 1, 0x0, [.LINK_TXFRAMES_COUNT]⟩,
  ⟨0x03000020, 16, 0x10000, 1, 0x0, [.LINK_RXFRAMES_COUNT]⟩,
  ⟨0x03000028, 16, 0x10000, 1, 0x0, [.LINK_RELAYED_COUNT]⟩,
  ⟨0x03000030, 16, 0x10000, 1, 0x0, [.LINK_DISCARD_NOSERVICE, .LINK_DISCARD_ROUTE, .LINK_DISCARD_DOWN, .LINK_DISCARD_STOPPED]⟩,
  ⟨0x03000038, 16, 0x10000, 1, 0x0, [.LINK_FEC_CORR, .LINK_FEC_FAIL]⟩,
  ⟨0x03000040, 16, 0x10000, 1, 0x0, [.LINK_AUTH_FAIL]⟩,
  ⟨0x03000048, 16, 0x10000, 1, 0x0, [.LINK_STOP_SRC, .LINK_STOP_PMASK]⟩,
  ⟨0x03008000, 1, 0x10000, 1, 0x0, [.LINK_GCTL_REPLYLIM, .LINK_GCTL_LATEREP]⟩,
  ⟨0x03008008, 1, 0x10000, 1, 0x0, [.LINK_PAIR_ENABLE, .LINK_PAIR_WRITE, .LINK_PAIR_PORT, .LINK_PAIR_STATE]⟩,
  ⟨0x03008010, 1, 0x10000, 1, 0x0, [.LINK_PAIR_STAGE]⟩,
  ⟨0x03008018, 1, 0x10000, 1, 0x0, [.LINK_PAIR_WAIT, .LINK_PAIR_GRACE]⟩,
  ⟨0x03008020, 1, 0x10000, 1, 0x0, [.LINK_PAIR_MISMATCH, .LINK_PAIR_LOST]⟩,
  ⟨0x03008028, 1, 0x10000, 1, 0x0, [.LINK_PAIR_LASTSTEP]⟩]

/-- The words of the UCIE region. -/
def wordsUcie : List WordInfo := [
  ⟨0x03100000, 1, 0x0, 1, 0x0, [.UCIE_STAT_MODS, .UCIE_STAT_RATE, .UCIE_STAT_FLIT, .UCIE_STAT_HDMCOMMIT]⟩,
  ⟨0x03100008, 4, 0x8, 1, 0x0, [.UCIE_MOD_STATE, .UCIE_MOD_REPAIRED]⟩,
  ⟨0x03100028, 1, 0x0, 1, 0x0, [.UCIE_ERR_RETRY, .UCIE_ERR_CRC]⟩,
  ⟨0x03100030, 1, 0x0, 1, 0x0, [.UCIE_CREDSTALL_NS]⟩,
  ⟨0x03100038, 1, 0x0, 1, 0x0, [.UCIE_POISON_COUNT]⟩]

/-- The words of the FARCXL region. -/
def wordsFarcxl : List WordInfo := [
  ⟨0x03180000, 1, 0x0, 1, 0x0, [.FARCXL_CTL_ENABLE, .FARCXL_CTL_BIF, .FARCXL_CTL_TIMEOUT]⟩,
  ⟨0x03180008, 1, 0x0, 1, 0x0, [.FARCXL_STAT_STATE, .FARCXL_STAT_GIB]⟩,
  ⟨0x03180010, 4, 0x8, 1, 0x0, [.FARCXL_EXP_STATE, .FARCXL_EXP_WIDTH, .FARCXL_EXP_RATE, .FARCXL_EXP_GIB, .FARCXL_EXP_BASE]⟩,
  ⟨0x03180030, 1, 0x0, 1, 0x0, [.FARCXL_SEALTAB_BASE]⟩,
  ⟨0x03180038, 1, 0x0, 1, 0x0, [.FARCXL_SEALTAB_SLOTS]⟩,
  ⟨0x03180040, 1, 0x0, 1, 0x0, [.FARCXL_ERR_AUTH, .FARCXL_ERR_POISON, .FARCXL_ERR_TIMEOUT]⟩,
  ⟨0x03180048, 1, 0x0, 1, 0x0, [.FARCXL_TRAFFIC_RMW]⟩]

/-- The words of the FAULT region. -/
def wordsFault : List WordInfo := [
  ⟨0x00800000, 1, 0x0, 1, 0x0, [.FAULT_CFG_LOCKSTEP, .FAULT_CFG_DIAGEN, .FAULT_CFG_CETHRESH, .FAULT_CFG_DIAGPER, .FAULT_CFG_LOCK]⟩,
  ⟨0x00800008, 1, 0x0, 1, 0x0, [.FAULT_STATUS_GUAR, .FAULT_STATUS_HALT, .FAULT_STATUS_CACHEBYP, .FAULT_STATUS_OPEN]⟩,
  ⟨0x00800010, 1, 0x0, 1, 0x0, [.FAULT_ACK_PART, .FAULT_ACK_GO]⟩,
  ⟨0x00800018, 1, 0x0, 1, 0x0, [.FAULT_STOP_STOPPED]⟩,
  ⟨0x00800020, 1, 0x0, 1, 0x0, [.FAULT_RETIRE_KIND, .FAULT_RETIRE_STACK, .FAULT_RETIRE_BANK, .FAULT_RETIRE_ROW, .FAULT_RETIRE_GO]⟩,
  ⟨0x00800028, 1, 0x0, 1, 0x0, [.FAULT_RETST_BUSY, .FAULT_RETST_DONE, .FAULT_RETST_REFUSED, .FAULT_RETST_SPARES]⟩,
  ⟨0x00800030, 1, 0x0, 1, 0x0, [.FAULT_SELF_GO, .FAULT_SELF_BUSY, .FAULT_SELF_RESULT, .FAULT_SELF_LASTDUR]⟩,
  ⟨0x00800038, 1, 0x0, 1, 0x0, [.FAULT_INJ_ADDR, .FAULT_INJ_SYMS, .FAULT_INJ_ARM]⟩,
  ⟨0x00800040, 1, 0x0, 1, 0x0, [.FAULT_ELOGWP_INDEX]⟩,
  ⟨0x00800100, 14, 0x8, 1, 0x0, [.FAULT_CNT_CE, .FAULT_CNT_UE, .FAULT_CNT_OFFWR]⟩,
  ⟨0x00801000, 16, 0x20, 1, 0x0, [.FAULT_REC_LO]⟩,
  ⟨0x00801008, 16, 0x20, 1, 0x0, [.FAULT_REC_HI]⟩,
  ⟨0x00801010, 16, 0x20, 1, 0x0, [.FAULT_REC_FIRST]⟩,
  ⟨0x00801018, 16, 0x20, 1, 0x0, [.FAULT_REC_LAST]⟩,
  ⟨0x00801200, 16, 0x8, 1, 0x0, [.FAULT_PCFG_EVENT, .FAULT_PCFG_EVEN, .FAULT_PCFG_MERGED]⟩,
  ⟨0x00802000, 256, 0x10, 1, 0x0, [.FAULT_ELOG_LO]⟩,
  ⟨0x00802008, 256, 0x10, 1, 0x0, [.FAULT_ELOG_HI]⟩,
  ⟨0x00803000, 16, 0x20, 1, 0x0, [.FAULT_WREG_BASE, .FAULT_WREG_VALID]⟩,
  ⟨0x00803008, 16, 0x20, 1, 0x0, [.FAULT_WREG_LEN]⟩,
  ⟨0x00803010, 16, 0x20, 1, 0x0, [.FAULT_WREG_PLANES, .FAULT_WREG_ARR, .FAULT_WREG_PSTRIDE]⟩,
  ⟨0x00803018, 16, 0x20, 1, 0x0, [.FAULT_WREG_MIRROR]⟩]

/-- The words of the PWR region. -/
def wordsPwr : List WordInfo := [
  ⟨0x00900000, 1, 0x0, 1, 0x0, [.PWR_STATE_CUR, .PWR_STATE_MOVING, .PWR_STATE_DAWNSTAGE]⟩,
  ⟨0x00900008, 1, 0x0, 1, 0x0, [.PWR_REQ_TARGET, .PWR_REQ_GO]⟩,
  ⟨0x00900010, 1, 0x0, 1, 0x0, [.PWR_WAKE_AT, .PWR_WAKE_PIN]⟩,
  ⟨0x00900018, 1, 0x0, 1, 0x0, [.PWR_CFG_RELAYWIN]⟩,
  ⟨0x00900020, 1, 0x0, 1, 0x0, [.PWR_VETO_PART]⟩,
  ⟨0x00900040, 8, 0x8, 1, 0x0, [.PWR_REFUSE_COUNT]⟩,
  ⟨0x00900080, 1, 0x0, 1, 0x0, [.PWR_LASTREF_CLASS, .PWR_LASTREF_INST, .PWR_LASTREF_TARGET]⟩,
  ⟨0x00900088, 1, 0x0, 1, 0x0, [.PWR_LASTREF_TICK]⟩,
  ⟨0x00900090, 1, 0x0, 1, 0x0, [.PWR_ASSIST_CSIS, .PWR_ASSIST_CACHE, .PWR_ASSIST_CTRL]⟩,
  ⟨0x009000A0, 1, 0x0, 1, 0x0, [.PWR_GUARD_LIMIT, .PWR_GUARD_RELEASE, .PWR_GUARD_COUNT, .PWR_GUARD_ACTIVE]⟩,
  ⟨0x009000B0, 1, 0x0, 1, 0x0, [.PWR_EXIT_LASTUS]⟩,
  ⟨0x009000C0, 1, 0x0, 1, 0x0, [.PWR_MNSAVE_BASE]⟩,
  ⟨0x00900100, 3, 0x8, 1, 0x0, [.PWR_DOM_CORE]⟩,
  ⟨0x00900118, 1, 0x0, 1, 0x0, [.PWR_DOM_QUAD]⟩,
  ⟨0x00900120, 1, 0x0, 1, 0x0, [.PWR_DOM_LINK, .PWR_DOM_FAR]⟩]

/-- The words of the THERM region. -/
def wordsTherm : List WordInfo := [
  ⟨0x00A00000, 24, 0x8, 1, 0x0, [.THERM_ZONE_TEMP, .THERM_ZONE_VALID, .THERM_ZONE_IGNORED, .THERM_ZONE_TICK]⟩,
  ⟨0x00A00100, 24, 0x8, 1, 0x0, [.THERM_NOW]⟩,
  ⟨0x00A00200, 1, 0x0, 1, 0x0, [.THERM_FLAG_COUNT]⟩,
  ⟨0x00A00208, 1, 0x0, 1, 0x0, [.THERM_TRIP_DIE, .THERM_TRIP_DRAM]⟩]

/-- The words of the RST region. -/
def wordsRst : List WordInfo := [
  ⟨0x00B00000, 1, 0x0, 1, 0x0, [.RST_CTL_WARM]⟩,
  ⟨0x00B00008, 1, 0x0, 1, 0x0, [.RST_CAUSE_POR, .RST_CAUSE_MRST, .RST_CAUSE_SOFT, .RST_CAUSE_TIMEOUT, .RST_CAUSE_MNSAVE]⟩,
  ⟨0x00B00010, 1, 0x0, 1, 0x0, [.RST_START_FAILS, .RST_START_LASTMS]⟩,
  ⟨0x00B00018, 1, 0x0, 1, 0x0, [.RST_MODE_TWILIGHT, .RST_MODE_TEST]⟩,
  ⟨0x00B00020, 1, 0x0, 1, 0x0, [.RST_PART_MASK, .RST_PART_GO, .RST_PART_BUSY]⟩,
  ⟨0x00B00028, 1, 0x0, 1, 0x0, [.RST_UNIT_CLASS, .RST_UNIT_INST, .RST_UNIT_GO, .RST_UNIT_BUSY, .RST_UNIT_REFUSED]⟩,
  ⟨0x00B00030, 1, 0x0, 1, 0x0, [.RST_ISO_COUNT]⟩]

end Sys2Proof.Machine
end

