-- ==== Sys2Proof/Machine/Bits.lean ====
section
/-! DEFINITION. Bit fields, little-endian bytes, saturating counters and modular comparison, used by every part of the machine. -/
namespace Sys2Proof.Machine

/-- Bits [hi:lo] of a number. -/
def bits (w hi lo : Nat) : Nat := (w / 2 ^ lo) % 2 ^ (hi - lo + 1)

/-- Bit k of a number, as a Bool. -/
def bit (w k : Nat) : Bool := (w / 2 ^ k) % 2 == 1

/-- 1 for true, 0 for false. -/
def b2n (b : Bool) : Nat := if b then 1 else 0

/-- The number with bit k set. -/
def setBit (w k : Nat) : Nat := if bit w k then w else w + 2 ^ k

/-- The number with bit k clear. -/
def clearBit (w k : Nat) : Nat := if bit w k then w - 2 ^ k else w

/-- The number cut to `n` bits. -/
def trunc (n w : Nat) : Nat := w % 2 ^ n

/-- A counter of `n` bits that saturates (the RC counters of the register tables). -/
def satAdd (n a d : Nat) : Nat := if a + d < 2 ^ n then a + d else 2 ^ n - 1

/-- Smallest multiple count: ⌈a / b⌉. -/
def ceilDiv (a b : Nat) : Nat := a / b + (if a % b = 0 ∨ b = 0 then 0 else 1)

/-- `n` little-endian bytes of a number. -/
def toBytes : Nat → Nat → Bytes
  | 0, _ => []
  | n + 1, w => BitVec.ofNat 8 w :: toBytes n (w / 256)

/-- The number a little-endian byte string spells. -/
def ofBytes : Bytes → Nat
  | [] => 0
  | b :: bs => b.toNat + 256 * ofBytes bs

/-- Bytes [i, i + n) of a byte string, zero past its end. -/
def slice (bs : Bytes) (i n : Nat) : Bytes :=
  let t := (bs.drop i).take n
  t ++ List.replicate (n - t.length) 0

/-- The number in bytes [i, i + n) of a byte string. -/
def field (bs : Bytes) (i n : Nat) : Nat := ofBytes (slice bs i n)

/-- The byte string `bs` with `new` put at position i. -/
def putBytes (bs : Bytes) (i : Nat) (new : Bytes) : Bytes :=
  bs.take i ++ List.replicate (i - bs.length) 0 ++ new ++ bs.drop (i + new.length)

/-- A tick value X has passed at tick `now` when (now − X) mod 2⁴⁸ < 2⁴⁷ (R23); the same test serves event and token waits (R89, R90). -/
def reached48 (now x : Nat) : Bool := (now + 2 ^ 48 - x % 2 ^ 48) % 2 ^ 48 < 2 ^ 47

/-- Exclusive or of the low 9 bits, used by the stripe hash of R55. -/
def xor9 (a b c : Nat) : Nat := ((a % 512) ^^^ (b % 512)) ^^^ (c % 512)

/-- Signed reading of an `n`-bit number. -/
def toSigned (n w : Nat) : Int := if w % 2 ^ n < 2 ^ (n - 1) then (w % 2 ^ n : Int) else (w % 2 ^ n : Int) - 2 ^ n

/-- The `n`-bit number of a signed value. -/
def ofSigned (n : Nat) (v : Int) : Nat := (v % 2 ^ n).toNat

/-- Set bits of a number of width n, as ascending indices. -/
def setBits (n w : Nat) : List Nat := (List.range n).filter (bit w)

/-- Number of set bits among the low n. -/
def popcount (n w : Nat) : Nat := (setBits n w).length

/-- The k-th value of a list, or a default. -/
def nthD {α : Type} (l : List α) (k : Nat) (d : α) : α := l.getD k d

/-- The list with its k-th entry replaced, when there is one. -/
def setNth {α : Type} (l : List α) (k : Nat) (v : α) : List α := l.set k v

end Sys2Proof.Machine
end

