-- ==== Sys2Proof/Machine/Float.lean ====
section
/-! DEFINITION. The numbers of file 06: exact dyadic values with signed zero, infinities and NaN, the one rounding of each operation, and the element encodings of R152. -/
namespace Sys2Proof.Machine

/-- An exact value: NaN, an infinity, or (−1)^neg × m × 2^e. Zero keeps its sign. -/
inductive FVal where
  | nan
  | inf (neg : Bool)
  | fin (neg : Bool) (m : Nat) (e : Int)
  deriving DecidableEq, Repr

/-- A floating-point encoding of R152: exponent bits, fraction bits, bias. -/
structure FmtEnc where
  ebits : Nat
  fbits : Nat
  bias : Nat
  deriving DecidableEq, Repr

def encFp32 : FmtEnc := ⟨8, 23, 127⟩
def encBf16 : FmtEnc := ⟨8, 7, 127⟩
def encE4M3 : FmtEnc := ⟨4, 3, 7⟩
def encE5M2 : FmtEnc := ⟨5, 2, 15⟩
def encE2M1 : FmtEnc := ⟨2, 1, 1⟩

/-- 2^k for a non-negative power, 1 below. -/
def pow2 (k : Int) : Nat := 2 ^ k.toNat

namespace FVal

def zero : FVal := .fin false 0 0
def one : FVal := .fin false 1 0

/-- The exact value of an integer. -/
def ofInt (v : Int) : FVal := .fin (v < 0) v.natAbs 0

def isNan : FVal → Bool
  | .nan => true
  | _ => false

def isInf : FVal → Bool
  | .inf _ => true
  | _ => false

def isZero : FVal → Bool
  | .fin _ 0 _ => true
  | _ => false

def isFinite : FVal → Bool
  | .fin _ _ _ => true
  | _ => false

def sign : FVal → Bool
  | .nan => false
  | .inf s => s
  | .fin s _ _ => s

def neg : FVal → FVal
  | .nan => .nan
  | .inf s => .inf (!s)
  | .fin s m e => .fin (!s) m e

def abs : FVal → FVal
  | .nan => .nan
  | .inf _ => .inf false
  | .fin _ m e => .fin false m e

/-- Exact product; ∞ × 0 is NaN (R160). -/
def mul : FVal → FVal → FVal
  | .nan, _ => .nan
  | _, .nan => .nan
  | .inf s, .inf t => .inf (s != t)
  | .inf s, .fin t m _ => if m = 0 then .nan else .inf (s != t)
  | .fin s m _, .inf t => if m = 0 then .nan else .inf (s != t)
  | .fin s m e, .fin t n f => .fin (s != t) (m * n) (e + f)

/-- The signed mantissa of a finite value at exponent e ≤ its own. -/
def mantAt (s : Bool) (m : Nat) (e at' : Int) : Int :=
  let v : Int := (m * pow2 (e - at') : Nat)
  if s then -v else v

/-- Exact sum, IEEE signs of zero: an exact zero is +0 unless both operands are −0. -/
def add : FVal → FVal → FVal
  | .nan, _ => .nan
  | _, .nan => .nan
  | .inf s, .inf t => if s = t then .inf s else .nan
  | .inf s, .fin _ _ _ => .inf s
  | .fin _ _ _, .inf t => .inf t
  | .fin s m e, .fin t n f =>
    let g := min e f
    let v := mantAt s m e g + mantAt t n f g
    if v = 0 then .fin (s && t && m == 0 && n == 0) 0 0
    else .fin (v < 0) v.natAbs g

/-- Order of two values that are not NaN, +0 above −0 (R165): is x less than y. -/
def lt (x y : FVal) : Bool :=
  match x, y with
  | .nan, _ => false
  | _, .nan => false
  | .inf s, .inf t => s && !t
  | .inf s, .fin _ _ _ => s
  | .fin _ _ _, .inf t => !t
  | .fin s m e, .fin t n f =>
    let g := min e f
    let a := mantAt s m e g
    let b := mantAt t n f g
    if a = b then a = 0 && s && !t else a < b

end FVal

/-- m div 2^s rounded to nearest, ties to even. -/
def shiftRne (m s : Nat) : Nat :=
  let q := m / 2 ^ s
  let r := m % 2 ^ s
  if 2 * r > 2 ^ s || (2 * r == 2 ^ s && q % 2 == 1) then q + 1 else q

/-- The exact value rounded to an integer, ties to even (finite values only; others give 0). -/
def roundInt : FVal → Int
  | .fin s m e =>
    let a : Nat := if e ≥ 0 then m * pow2 e else shiftRne m (-e).toNat
    if s then -(a : Int) else a
  | _ => 0

/-- Rounded mantissa and its quantum exponent for a format of R152, before range handling. -/
def roundTo (f : FmtEnc) (m : Nat) (e : Int) : Nat × Int :=
  let p : Int := f.fbits
  let top : Int := e + (Nat.log2 m : Int)
  let emin : Int := 1 - f.bias
  let q := max (top - p) (emin - p)
  let m' := if e ≥ q then m * pow2 (e - q) else shiftRne m (q - e).toNat
  if m' = 2 ^ (f.fbits + 1) then (2 ^ f.fbits, q + 1) else (m', q)

/-- Exponent and fraction fields of a rounded finite magnitude. -/
def packMag (f : FmtEnc) (m : Nat) (q : Int) : Nat :=
  if m < 2 ^ f.fbits then m
  else ((q + f.fbits + f.bias).toNat) * 2 ^ f.fbits + (m - 2 ^ f.fbits)

/-- Encoding into an IEEE-style format (FP32, BF16, E5M2): `satur` is the code of a magnitude beyond the finite range (R166). -/
def encodeIeee (f : FmtEnc) (infCode satur nanCode : Nat) (v : FVal) : Nat :=
  let sb := 2 ^ (f.ebits + f.fbits)
  match v with
  | .nan => nanCode
  | .inf s => (if s then sb else 0) + infCode
  | .fin s m e =>
    let base := if s then sb else 0
    if m = 0 then base
    else
      let r := roundTo f m e
      if r.2 + f.fbits + f.bias ≥ 2 ^ f.ebits - 1 ∧ r.1 ≥ 2 ^ f.fbits then base + satur
      else base + packMag f r.1 r.2

/-- rne32: the exact value rounded once to FP32 (R158). -/
def rne32 (v : FVal) : Word32 := BitVec.ofNat 32 (encodeIeee encFp32 0x7F800000 0x7F800000 0x7FC00000 v)

/-- The exact value rounded once to BF16. -/
def rneBf16 (v : FVal) : Nat := encodeIeee encBf16 0x7F80 0x7F80 0x7FC0 v

/-- Conversion to E4M3 (R166): beyond ±448 and ±∞ give ±448, NaN gives 0x7F. -/
def toE4M3 (v : FVal) : Nat :=
  match v with
  | .nan => 0x7F
  | .inf s => (if s then 0x80 else 0) + 0x7E
  | .fin s m e =>
    let base := if s then 0x80 else 0
    if m = 0 then base
    else
      let r := roundTo encE4M3 m e
      let c := packMag encE4M3 r.1 r.2
      base + min c 0x7E

/-- Conversion to E5M2 (R166): beyond the range ±57,344, ±∞ stays ±∞, NaN gives 0x7E. -/
def toE5M2 (v : FVal) : Nat := encodeIeee encE5M2 0x7C 0x7B 0x7E v

/-- Conversion to an MXFP4 element (R166): beyond ±6 gives ±6. -/
def toE2M1 (v : FVal) : Nat :=
  match v with
  | .fin s m e =>
    let base := if s then 8 else 0
    if m = 0 then base
    else
      let r := roundTo encE2M1 m e
      base + min (packMag encE2M1 r.1 r.2) 7
  | .inf s => (if s then 8 else 0) + 7
  | .nan => 0

/-- Conversion to an integer limited to [lo, hi] (R166, R168). -/
def toIntLim (lo hi : Int) (v : FVal) : Int :=
  match v with
  | .nan => 0
  | .inf s => if s then lo else hi
  | .fin s m e => max lo (min hi (roundInt (.fin s m e)))

/-- Value of an encoding of R152 without special values at the top exponent. -/
def decodeMini (f : FmtEnc) (w : Nat) : FVal :=
  let s := bit w (f.ebits + f.fbits)
  let ef := (w / 2 ^ f.fbits) % 2 ^ f.ebits
  let fr := w % 2 ^ f.fbits
  if ef = 0 then .fin s fr (1 - f.bias - f.fbits)
  else .fin s (2 ^ f.fbits + fr) ((ef : Int) - f.bias - f.fbits)

/-- Value of an IEEE-style encoding: the top exponent holds ±∞ and NaN. -/
def decodeIeee (f : FmtEnc) (w : Nat) : FVal :=
  let ef := (w / 2 ^ f.fbits) % 2 ^ f.ebits
  let fr := w % 2 ^ f.fbits
  if ef = 2 ^ f.ebits - 1 then
    if fr = 0 then .inf (bit w (f.ebits + f.fbits)) else .nan
  else decodeMini f w

def fp32Val (w : Word32) : FVal := decodeIeee encFp32 w.toNat
def bf16Val (w : Nat) : FVal := decodeIeee encBf16 w
def e4m3Val (w : Nat) : FVal := if w % 128 = 127 then .nan else decodeMini encE4M3 w
def e5m2Val (w : Nat) : FVal := decodeIeee encE5M2 w
def e2m1Val (w : Nat) : FVal := decodeMini encE2M1 w

/-- E8M0 scale (R153). -/
def e8m0Val (w : Nat) : FVal := if w = 255 then .nan else .fin false 1 ((w : Int) - 127)

/-- A PQn element read with k of its n planes (R155): the integer, or the midpoint of what the dropped planes can hold. -/
def pqVal (n k q : Nat) : FVal :=
  let v := toSigned n q
  if k ≥ n then FVal.ofInt v
  else
    let d := n - k
    let base : Int := v / (2 ^ d : Int) * (2 ^ d : Int)
    let twice := 2 * base + ((2 ^ d : Int) - 1)
    .fin (twice < 0) twice.natAbs (-1)

/-- Number of planes of a format code: 4 for MXFP4, n for PQn, 0 for byte formats (R152). -/
def planesOf (fmt : Nat) : Nat := if fmt = 0x08 then 4 else if 0x11 ≤ fmt ∧ fmt ≤ 0x18 then fmt - 0x10 else 0

/-- Bytes of an element of a byte format (R152, R180); 0 for planar formats. -/
def elemBytes (fmt : Nat) : Nat :=
  if fmt = 0 then 4 else if fmt = 1 then 2 else if fmt ≤ 7 then 1 else 0

/-- A format code of R128. -/
def fmtValid (fmt : Nat) : Bool := fmt ≤ 8 || (0x11 ≤ fmt && fmt ≤ 0x18)

/-- Scale block length of a format (R153): 32 for MX formats, 64 for PQn, 0 for formats without block scales. -/
def scaleBlock (fmt : Nat) : Nat :=
  if 5 ≤ fmt ∧ fmt ≤ 8 then 32 else if 0x11 ≤ fmt ∧ fmt ≤ 0x18 then 64 else 0

/-- Element value of a format code (R152), PQn read with k planes. -/
def elemVal (fmt k w : Nat) : FVal :=
  if fmt = 0 then fp32Val (BitVec.ofNat 32 w)
  else if fmt = 1 then bf16Val w
  else if fmt = 2 ∨ fmt = 5 then e4m3Val w
  else if fmt = 3 ∨ fmt = 6 then e5m2Val w
  else if fmt = 4 then FVal.ofInt (toSigned 8 w)
  else if fmt = 7 then (match FVal.ofInt (toSigned 8 w) with | .fin s m e => .fin s m (e - 6) | v => v)
  else if fmt = 8 then e2m1Val w
  else pqVal (fmt - 0x10) k w

/-- Scale value of a format code (R153). -/
def scaleVal (fmt w : Nat) : FVal :=
  if 5 ≤ fmt ∧ fmt ≤ 8 then e8m0Val w else if 0x11 ≤ fmt ∧ fmt ≤ 0x18 then e4m3Val w else FVal.one

/-- A unit of the exact sums of R157 and R160: adding one product to a running block sum. -/
def blockAdd (s p : FVal) : FVal := s.add p

/-- The exact block sum of R157 satur paired elements, R160 for special values. -/
def blockSum : List (FVal × FVal) → FVal
  | [] => FVal.zero
  | (a, b) :: rest => (a.mul b).add (blockSum rest)

/-- One accumulator rounding of R158: acc + a × b × S, exact inside; a zero contribution adds as +0, an exact zero is +0. -/
def accumulate (acc : Word32) (scale s : FVal) : Word32 :=
  let c := if s.isZero ∧ scale.isFinite then FVal.zero else scale.mul s
  let c := if c.isZero then FVal.zero else c
  match (fp32Val acc).add c with
  | .fin _ 0 _ => 0
  | v => rne32 v

/-! ## FP32 operations (R164, R165) -/

/-- Results of a type: FP32 (0) or BF16 (1), rounded once. -/
def rneType (ty : Nat) (v : FVal) : Nat := if ty = 1 then rneBf16 v else (rne32 v).toNat

/-- Value of a lane of a floating type. -/
def laneVal (ty w : Nat) : FVal := if ty = 1 then bf16Val w else fp32Val (BitVec.ofNat 32 w)

/-- a × b + c rounded once to FP32 (R165). -/
def fma32 (a b c : FVal) : FVal := fp32Val (rne32 ((a.mul b).add c))

/-- The quotient x / y of two finite non-zero magnitudes, kept to enough bits with a sticky bit for one rounding. -/
def quotMag (m : Nat) (e : Int) (n : Nat) (f : Int) : Nat × Int :=
  let k := 64 + Nat.log2 n
  let num := m * 2 ^ k
  let q := num / n
  (2 * q + (if num % n = 0 then 0 else 1), e - f - k - 1)

/-- Exact quotient by IEEE rules (R242), as a value that one rounding may be applied to. -/
def fdiv : FVal → FVal → FVal
  | .nan, _ => .nan
  | _, .nan => .nan
  | .inf _, .inf _ => .nan
  | .inf s, .fin t _ _ => .inf (s != t)
  | .fin s _ _, .inf t => .fin (s != t) 0 0
  | .fin s m e, .fin t n f =>
    if n = 0 then (if m = 0 then .nan else .inf (s != t))
    else if m = 0 then .fin (s != t) 0 0
    else
      let q := quotMag m e n f
      .fin (s != t) q.1 q.2

/-- 1/√x for one rounding (R165). -/
def frsqrt : FVal → FVal
  | .nan => .nan
  | .inf s => if s then .nan else .fin false 0 0
  | .fin s m e =>
    if m = 0 then .inf s
    else if s then .nan
    else
      let m' := if e % 2 = 0 then m else 2 * m
      let e' := if e % 2 = 0 then e else e - 1
      let k := 64 + Nat.log2 m'
      let q := Nat.sqrt (2 ^ (2 * k) / m')
      .fin false (2 * q + (if q * q * m' = 2 ^ (2 * k) then 0 else 1)) (-(e' / 2) - k - 1)

/-- vx.max (R165): NaN when either is NaN, +0 above −0. -/
def fmax (x y : FVal) : FVal := if x.isNan || y.isNan then .nan else if x.lt y then y else x

/-- vx.min (R165). -/
def fmin (x y : FVal) : FVal := if x.isNan || y.isNan then .nan else if x.lt y then x else y

/-- c[k], the FP32 value nearest 1/k! (R165). -/
def expCoef (k : Nat) : FVal :=
  fp32Val (match k with
    | 0 => 0x3F800000
    | 1 => 0x3F800000
    | 2 => 0x3F000000
    | 3 => 0x3E2AAAAB
    | 4 => 0x3D2AAAAB
    | 5 => 0x3C088889
    | 6 => 0x3AB60B61
    | _ => 0x39500D01)

/-- Horner steps of vexp from coefficient k down to 0. -/
def expPoly (r : FVal) : Nat → FVal → FVal
  | 0, p => fma32 p r (expCoef 0)
  | k + 1, p => expPoly r k (fma32 p r (expCoef (k + 1)))

/-- vexp of R165: the exponential every unit of the block uses. -/
def vexp (x : FVal) : FVal :=
  if x.isNan then .nan
  else if (FVal.fin false 100 0).lt x then .inf false
  else if x.lt (FVal.fin true 110 0) then .fin false 0 0
  else
    let t := fp32Val (rne32 (x.mul (fp32Val 0x3FB8AA3B)))
    let n := roundInt t
    let mn := FVal.ofInt (-n)
    let r := fma32 mn (fp32Val 0x3F317218) x
    let r := fma32 mn (fp32Val 0xB102E308) r
    let p := expPoly r 6 (expCoef 7)
    match p with
    | .fin s m e => fp32Val (rne32 (.fin s m (e + n)))
    | v => v

/-- The least power of two at or above n, as a level count. -/
def treeLevels (n : Nat) : Nat := if n ≤ 1 then 0 else Nat.log2 (n - 1) + 1

/-- One level of the pairwise tree. -/
def treeLevel {α : Type} (op : α → α → α) : List α → List α
  | a :: b :: rest => op a b :: treeLevel op rest
  | l => l

/-- The fixed pairwise tree of R165 satur a list padded to a power of two. -/
def treeFold {α : Type} (op : α → α → α) (pad : α) (l : List α) : α :=
  let n := treeLevels l.length
  ((List.range n).foldl (fun acc _ => treeLevel op acc) (l ++ List.replicate (2 ^ n - l.length) pad)).headD pad

/-- ⌊log₂ v⌋ of a positive finite value. -/
def floorLog2 (m : Nat) (e : Int) : Int := (Nat.log2 m : Int) + e

end Sys2Proof.Machine
end

