-- ==== Sys2Proof/Machine/Sparse.lean ====
section
/-! DEFINITION. Sparse maps: lists of key and value in one canonical form (keys strictly rising, no entry equal to what an unlisted key reads as).
Memory, the registers and every table of the block are kept this way, so that equal contents are equal data. -/
namespace Sys2Proof.Machine

/-- The value at key k: the first listed one, else what an unlisted key reads as. -/
def look {κ β : Type} [DecidableEq κ] (d : κ → β) (k : κ) : List (κ × β) → β
  | [] => d k
  | (k', v) :: rest => if k = k' then v else look d k rest

/-- The list with (k, v) put at its place; `before` orders the keys. -/
def put {κ β : Type} [DecidableEq κ] (before : κ → κ → Bool) (k : κ) (v : β) : List (κ × β) → List (κ × β)
  | [] => [(k, v)]
  | (k', v') :: rest =>
    if k = k' then (k, v) :: rest
    else if before k k' then (k, v) :: (k', v') :: rest
    else (k', v') :: put before k v rest

/-- The list without key k. -/
def erase {κ β : Type} [DecidableEq κ] (k : κ) : List (κ × β) → List (κ × β)
  | [] => []
  | (k', v') :: rest => if k = k' then erase k rest else (k', v') :: erase k rest

/-- Write v at key k: an entry equal to what an unlisted key reads as is removed. -/
def store {κ β : Type} [DecidableEq κ] [DecidableEq β] (before : κ → κ → Bool) (d : κ → β) (k : κ) (v : β)
    (l : List (κ × β)) : List (κ × β) :=
  if v = d k then erase k l else put before k v l

/-- The canonical form: keys strictly rising in `before`, no entry at its default. -/
def canonical {κ β : Type} [DecidableEq β] (before : κ → κ → Bool) (d : κ → β) : List (κ × β) → Bool
  | [] => true
  | [(k, v)] => decide (v ≠ d k)
  | (k, v) :: (k', v') :: rest => decide (v ≠ d k) && before k k' && canonical before d ((k', v') :: rest)

/-- Order of natural-number keys. -/
def natBefore (a b : Nat) : Bool := decide (a < b)

/-- Sparse map with natural-number keys: read. -/
def nget {β : Type} (d : Nat → β) (l : List (Nat × β)) (k : Nat) : β := look d k l

/-- Sparse map with natural-number keys: write. -/
def nset {β : Type} [DecidableEq β] (d : Nat → β) (l : List (Nat × β)) (k : Nat) (v : β) : List (Nat × β) :=
  store natBefore d k v l

end Sys2Proof.Machine
end

