-- ==== Sys2Proof/Machine/State.lean ====
section
/-! DEFINITION. The state of the block: everything the spec names that a command can read or change, as plain data, and its value after cold reset. -/
namespace Sys2Proof.Machine

/-- A register field of one instance: the field and up to two indices (partition, queue, core, port, ...). -/
structure RKey where
  f : Fld
  i : Nat
  j : Nat
  deriving DecidableEq, Repr

/-- Order of register keys. -/
def RKey.before (a b : RKey) : Bool :=
  a.f.ctorIdx < b.f.ctorIdx || (a.f.ctorIdx == b.f.ctorIdx && (a.i < b.i || (a.i == b.i && a.j < b.j)))

/-- Value of a field after cold reset (the "After reset" columns; the three SEC_PART rows of R284 depend on the partition; the source of the reset is power-on, log entry 5). -/
def RKey.reset (k : RKey) : Nat :=
  match k.f with
  | .SEC_PART_CTL_ENABLE => if k.i = 0 then 1 else 0
  | .SEC_PART_CTL_RESIDENT => if k.i = 0 then 1 else 0
  | .SEC_PART_CWAYS_MASK => if k.i = 0 then 0xFFFF else 0
  | .RST_CAUSE_POR => 1
  | f => f.info.reset

/-- A SYNC source heard on a port (R298): the sender's grandmaster and distance, the time of the last frame. -/
structure SyncHeard where
  port : Nat
  gm : Nat
  dist : Nat
  heardAt : Nat
  deriving DecidableEq, Repr

/-- Acquisition of a time source (R298, R299). -/
structure Sync where
  heard : List SyncHeard
  /-- Port whose frames were accepted last (R299). -/
  src : Option Nat
  /-- Grandmaster and distance of the source in use. -/
  gm : Nat
  dist : Nat
  /-- Frames accepted in the present state. -/
  accepted : Nat
  /-- Consecutive accepted frames within, and beyond, ±4 ns. -/
  near : Nat
  beyond : Nat
  /-- The single step of ACQUIRING has been taken or passed up. -/
  stepped : Bool
  /-- Tick at which the state began, or of the last frame accepted in it. -/
  since : Nat
  deriving DecidableEq, Repr

/-- The time base (R22, R27, R29). -/
structure TimeBase where
  ns : Nat
  /-- TIME_CTL.LOAD was written and waits for the tick boundary. -/
  loadReq : Bool
  /-- High halves latched by 32-bit low-half reads, per requester (R29). -/
  latchHost : Option Nat
  latchFw : Option Nat
  sync : Sync
  deriving DecidableEq, Repr

/-- A unit of the shared cache: 32 bytes of a stack, which of them the cache holds, which are dirty, poisoned codewords, the partition that allocated it, and its way (R61, R259, R331). -/
structure CacheUnit where
  data : Bytes
  held : Nat
  dirty : Nat
  /-- Bit h: codeword h of the unit is held poisoned. -/
  poison : Nat
  part : Nat
  way : Nat
  deriving DecidableEq, Repr

/-- The partition switch (R278 to R280): what its accepted request named, apart from SEC_PSW's fields, which may be written while it runs; its tick; the tick of the last one's end;
and the lines each partition kept in the cache when it was switched out, as partition and unit. -/
structure PartSwitch where
  out : Nat
  inn : Nat
  at_ : Nat
  endedAt : Option Nat
  kept : List (Nat × Nat)
  deriving DecidableEq, Repr

/-- An entry of the session table (R260). -/
structure SEntry where
  id : Nat
  part : Nat
  state : Nat
  pend : Bool
  shed : Nat
  bucket : Nat
  prio : Nat
  listed : Bool
  wdr : Bool
  poolHeld : Bool
  len : Nat
  root : Nat
  deadline : Nat
  outseq : Nat
  served : Nat
  shedSteps : Nat
  noadv : Nat
  lateSteps : Nat
  wdrSteps : Nat
  apptag : Nat
  lastEnd : Nat
  deriving DecidableEq, Repr

/-- The free entry: all fields zero (R261). -/
def SEntry.free : SEntry := ⟨0, 0, 0, false, 0, 0, 0, false, false, false, 0, 0, 0, 0, 0, 0, 0, 0, 0, 0, 0⟩

/-- A shed raise recorded by a fired action, for the next BUILD (R275, R276). -/
structure Raise where
  bmask : Nat
  pmin : Nat
  add : Nat
  deriving DecidableEq, Repr

/-- The deadline monitor's and the open step's own state of one partition (R265 to R277, R303, R306). -/
structure Mon where
  /-- A step was opened since the partition was enabled or reset. -/
  hadStep : Bool
  warned : Bool
  missed : Bool
  /-- Action entries that fired in the step. -/
  fired : Nat
  /-- A warning was detected in the running tick: its entries fire at the next boundary. -/
  warnDue : Bool
  raises : List Raise
  /-- The work list of the open step: session index, bucket and the shed level in force for the step (R266), in list order. -/
  list : List (Nat × Nat × Nat)
  /-- A command of the step carried DEGRADED; the partition was outside the envelope during the step. -/
  degraded : Bool
  ooe : Bool
  /-- The fault reaction marked the step's digest (R304). -/
  bad : Bool
  /-- ACTMASK, WARN and MISS of the twin's previous DIGEST, when one arrived (R306). -/
  twin : Option (Nat × Bool × Bool)
  /-- A warning of the step before was detected in the tick in which this step opened: the entries that had fired by then (R275). -/
  carry : Option Nat
  deriving DecidableEq, Repr

/-- A partition that has opened no step. -/
def Mon.fresh : Mon := ⟨false, false, false, 0, false, [], [], false, false, false, none, none⟩

/-- A command that has issued and not completed, with the values resolved at its issue (R87). -/
structure Issued where
  id : Nat
  part : Nat
  queue : Nat
  slot : Nat
  cmd : Cmd
  /-- Tick of the issue instant, and resolved issue tick (0 for ASAP). -/
  tick : Nat
  sched : Nat
  /-- Envelope causes that have taken the command outside, in the order of TIME_ENV bits [14:8]. -/
  causes : Nat
  ooe : Bool
  /-- The status with which it will complete, once its operation has ended. -/
  result : Option Nat
  progress : Nat
  items : Nat
  degraded : Bool
  /-- Per-item statuses, for commands with items. -/
  itemSt : List (Option Nat)
  /-- What the engine still has to do: cores running, conversions, frames to leave, replies to land. -/
  left : Nat
  /-- The engine has started it: every earlier command of its queue has completed and its domains run (R49, R67; log entry 12). -/
  started : Bool
  /-- Values captured at issue: a SEAL's payload words; whether the address of a COPY's atomic is the block's own (R52); the status a REMOTE ends with when it has stopped early. -/
  extra : List Nat
  /-- Descriptor words that a COPY resolved at its issue: destination, then source (R177, R191). -/
  descs : List (List Nat)
  deriving DecidableEq, Repr

/-- The last issued command of a queue, for R41. -/
structure Pred where
  out : Bool
  /-- Tick of its completion. -/
  doneAt : Option Nat
  deriving DecidableEq, Repr

/-- A count that an outside command's event or token reached (R41). -/
structure OutMark where
  part : Nat
  /-- true: token of queue `num`; false: event `num`. -/
  token : Bool
  num : Nat
  count : Nat
  causes : Nat
  deriving DecidableEq, Repr

/-- A switch whose PREEMPT cause is active: the two partitions, and the incoming one, whose first SEQ ends it (R40). -/
structure Preempt where
  a : Nat
  b : Nat
  deriving DecidableEq, Repr

/-- The sequencer's own state (file 04). -/
structure Sequencer where
  /-- Snapshot tails, issues of this tick per queue (key part × 32 + queue) and in all (R30, R32). -/
  snapTail : List (Nat × Nat)
  inTick : List (Nat × Nat)
  inTickAll : Nat
  /-- Increments made during the running tick, seen by waits from the next tick (R89): events (part × 256 + e), tokens (part × 32 + queue). -/
  evDelta : List (Nat × Nat)
  tokDelta : List (Nat × Nat)
  /-- Writes that wait for the tick boundary (R12): PARAM (part, k, value), QTBASE (part, queue, value), EVRAISE (part, event), RESUME (part, queue). -/
  paramPend : List (Nat × Nat × Nat)
  tbasePend : List (Nat × Nat × Nat)
  evPend : List (Nat × Nat)
  resumePend : List (Nat × Nat)
  preds : List (Nat × Pred)
  outMarks : List OutMark
  preempts : List Preempt
  /-- TIME_SYNC.HELD has counted the running tick. -/
  heldTick : Bool
  issued : List Issued
  nextId : Nat
  deriving DecidableEq, Repr

/-- A descriptor slot (R175 to R179): 0 free, 1 live, 2 draining; the words, the generation, and the issued commands a drain waits for. -/
structure DescSlot where
  st : Nat
  gen : Nat
  words : List Nat
  waitFor : List Nat
  deriving DecidableEq, Repr

/-- A slot never used: free, generation 1 (R177). -/
def DescSlot.fresh : DescSlot := ⟨0, 1, [], []⟩

/-- Who started a forget (R221): the stack's own registers, or a write of an allocation entry of a sealed partition (R370). -/
inductive ForgetOwner where
  | register
  | alloc (p a : Nat)
  deriving DecidableEq, Repr

/-- A forget in progress: stack, first granule, count. -/
structure Forget where
  stack : Nat
  base : Nat
  len : Nat
  owner : ForgetOwner
  deriving DecidableEq, Repr

/-- A page-format descriptor, decoded (R227). -/
structure PageFmt where
  fmtid : Nat
  nk : Nat
  nv : Nat
  cls : Nat
  dim : Nat
  tpp : Nat
  kt : Nat
  rowspp : Nat
  deriving DecidableEq, Repr

/-- A sequence descriptor, decoded (R202, R239). -/
structure SeqDesc where
  kind : Nat
  exch : Bool
  ofmt : Nat
  scale : Word32
  cin : Bool
  cout : Bool
  maxPages : Nat
  useRes : Bool
  kpages : Nat
  deriving DecidableEq, Repr

/-- One query row of an item's fold (R242, R243), or one input row's accumulators of a PGEMV (R247). -/
structure AccRow where
  m : Word32
  l : Word32
  o : List Word32
  q : Bytes
  deriving DecidableEq, Repr

/-- Where a work item stands. -/
inductive ItemPhase where
  | waiting      -- not yet on a bank
  | onBank (b : Nat)   -- occupies bank b
  | sending (b : Nat)   -- its record is held at, or travels from, bank b (R244)
  | staged (b : Nat)   -- its record is staged at bank b
  | finished
  deriving DecidableEq, Repr

/-- A work item in flight (R203 to R206). -/
structure Item where
  id : Nat
  cmdId : Nat
  idx : Nat
  part : Nat
  stack : Nat
  desc : SeqDesc
  fmt : PageFmt
  inA : Nat
  session : Nat
  outA : Nat
  root : Nat
  len : Nat
  shed : Nat
  rows : Nat
  /-- Page addresses the item names, in list order. -/
  pages : List Nat
  /-- Next page of the list, and engine cycles of sequence work left on the present bank. -/
  page : Nat
  work : Nat
  phase : ItemPhase
  /-- First failure: the item keeps its place in the plan (R206). -/
  failed : Option Nat
  degraded : Bool
  /-- A partition reset has stopped the item at a yield point (R207): what is left of its plan passes without work. -/
  stopped : Bool
  acc : List AccRow
  /-- Order of its present request for a chain link or the bus (R208). -/
  asked : Nat
  /-- Of an APPEND: its IN bytes, whether its page was blank, whether the page was popped, and whether its pop failed with a session that did not come to be held (R248, R251). -/
  inB : Bytes
  blank : Bool
  popped : Bool
  unheldPop : Bool
  deriving DecidableEq, Repr

/-- What a bank's time is divided into (R210, R214). -/
inductive BankPhase where
  | idle
  | window
  | segment
  | slot
  deriving DecidableEq, Repr

/-- An ordinary access waiting at a bank (R212): class, canonical address, length, data to write (none for a read), engine cycles waited, partition. -/
structure BankAccess where
  hostClass : Bool
  /-- Local address, in the view of the access. -/
  addr : Nat
  len : Nat
  data : Option Bytes
  age : Nat
  part : Nat
  /-- It has been counted as one that did not fit in a window (R213). -/
  deferred : Bool
  deriving DecidableEq, Repr

/-- A bank and its engine (R196, R210). -/
structure Bank where
  phase : BankPhase
  occupant : Option Nat
  /-- Item whose record is staged in scratch, and item whose record waits to leave (R244). -/
  staged : Option Nat
  sending : Option Nat
  waits : List BankAccess
  /-- The throttle plan of R223 is in force at this bank. -/
  throttled : Bool
  /-- The bank goes offline at its next yield point (R338). -/
  goingOffline : Bool
  /-- Engine cycles left in the running segment (R210). -/
  left : Nat
  /-- Rows open in the engine buffer and in the access buffer (R197). -/
  engineRow : Option Nat
  accessRow : Option Nat
  /-- An uncorrectable error in the record staged in scratch (R199, R254). -/
  scratchWrong : Bool
  deriving DecidableEq, Repr

/-- A bank no item occupies. -/
def Bank.idleBank : Bank := ⟨.idle, none, none, none, [], false, false, 0, none, none, false⟩

/-- A stack's own flags (R45, R223): hot calendar, throttle flag; rows mapped to spares by bank. -/
structure Stack where
  hot : Bool
  throt : Bool
  /-- Spare rows used, per bank, and rows remapped (bank × 32,768 + row). -/
  sparesUsed : List (Nat × Nat)
  remapped : List Nat
  deriving DecidableEq, Repr

/-- A stack with no flag set and no row remapped. -/
def Stack.fresh : Stack := ⟨false, false, [], []⟩

/-- A row copy in progress (R337): stack, bank, row, and whether the first of its two idle slots has read the row. Writes between the two slots reach the buffer, so the row's contents are the memory's own. -/
structure RowCopy where
  stack : Nat
  bank : Nat
  row : Nat
  read : Bool
  deriving DecidableEq, Repr

/-- A frame waiting at an output port (R292): port, class 1 to 5, frame, and the issued command whose frame it is. -/
structure TxEntry where
  port : Nat
  cls : Nat
  frame : Frame
  owner : Option Nat
  deriving DecidableEq, Repr

/-- A SEAL held at the destination (R72). -/
structure HeldSeal where
  addr : Nat
  event : Nat
  expect : Nat
  /-- Tick at which its hold limit passes; none for no limit. -/
  limit : Option Nat
  payload : Bytes
  /-- ENV byte of the frame (R296). -/
  env : Nat
  deriving DecidableEq, Repr

/-- A transfer at the destination (R72, R74): counts landed writes; closed for 10,000 ticks after its seal landed. -/
structure Transfer where
  src : Nat
  part : Nat
  xfer : Nat
  landed : Nat
  /-- Envelope causes of its frames, and of frames of it known to be lost (R40, R296). -/
  causes : Nat
  held : Option HeldSeal
  closedAt : Option Nat
  deriving DecidableEq, Repr

/-- Frames of one remote write that have arrived next to each other, or are known to be lost: the range of addresses, the least frame counter and its key slot, whether the write's
LAST frame is among them, whether one is lost, and envelope causes (R71, R74, R293; log entry 13). -/
structure Frag where
  src : Nat
  part : Nat
  xfer : Nat
  lo : Nat
  hi : Nat
  slot : Nat
  fcnt : Nat
  last : Bool
  bad : Bool
  causes : Nat
  deriving DecidableEq, Repr

/-- Frame counters heard under a key slot: the next one, and those passed over (R297). -/
structure RxCount where
  next : Nat
  gaps : List (Nat × Nat)
  deriving DecidableEq, Repr

/-- Nothing heard under a key slot since its key was loaded. -/
def RxCount.fresh : RxCount := ⟨0, []⟩

/-- A remote read's request, or a home atomic's, awaiting its reply (R293, R295). -/
structure Request where
  rid : Nat
  cmdId : Nat
  /-- Local address its data lands at, bytes it asked for; an atomic's RESULT address with 0 bytes. -/
  addr : Nat
  len : Nat
  deriving DecidableEq, Repr

/-- A record formed by EMIT or a reaction: session index and 48 plaintext bytes (R271). -/
structure OutRec where
  session : Nat
  plain : Bytes
  /-- The entry as the record leaves it. -/
  after : SEntry
  deriving DecidableEq, Repr

/-- A digest as a DIGEST frame carries it (R303). -/
structure Digest where
  hash : Bytes
  step : Nat
  part : Nat
  bad : Bool
  warn : Bool
  miss : Bool
  actmask : Nat
  deriving DecidableEq, Repr

/-- An EMIT whose output is withheld until the digests have met (R304): issued command, partition, records in EMIT order, own digest once ready and the tick of sending it. -/
structure PairWait where
  cmdId : Nat
  part : Nat
  staged : List OutRec
  own : Option Digest
  sentAt : Nat
  deriving DecidableEq, Repr

/-- The pair protocol (R303 to R305). -/
structure Pair where
  waits : List PairWait
  /-- Digests of the twin that wait to be compared. -/
  twins : List Digest
  /-- Own self-check result while the pair is checking; the twin's, with the STEP its CHECK names, none for a FENCE. -/
  ownCheck : Option Verdict
  twinCheck : Option (Verdict × Option Nat)
  checkAt : Nat
  checkStep : Nat
  deriving DecidableEq, Repr

/-- An entry of the error log (R335). -/
structure LogEntry where
  typ : Nat
  symbol : Nat
  count : Nat
  loc : Nat
  tick : Nat
  deriving DecidableEq, Repr

/-- A clock domain (R48, R49, R377): 0 stopped, 1 starting, 2 running; a stop that waits; the partitions that have voted stop since it last started; the tick at which a start reports ready. -/
structure Dom where
  st : Nat
  stopPend : Bool
  votes : Nat
  readyAt : Nat
  deriving DecidableEq, Repr

/-- What a far-tier access in flight is for: a page restore, a page spill, or a slot that a COPY reads or writes. -/
inductive FarKind where
  | restore
  | spill
  | copyRead
  | copyWrite
  deriving DecidableEq, Repr

/-- A far-tier access in flight (R322): the issued command and item, what it is for, slot, page address, page-list entry address, and the tick at which it was sent. -/
structure FarOp where
  id : Nat
  cmdId : Nat
  item : Nat
  part : Nat
  kind : FarKind
  slot : Nat
  page : Nat
  entry : Nat
  /-- What a COPY's write of the slot carries: the slot's bytes, and which of them it writes. -/
  buf : Bytes
  mask : Nat
  deriving DecidableEq, Repr

/-- A queue of a core (R116, R117): configuration, entries by absolute index (`pushed` next push, `popped` head), held entries, entries whose token is clear, poisoned entries. The claims of its ends follow from the operations that run (R121). -/
structure CQueue where
  configured : Bool
  base : Nat
  esize : Nat
  depth : Nat
  pushed : Nat
  popped : Nat
  /-- Pops so far, and the entries held: index and number of the pop that holds it (R118, R120). -/
  pops : Nat
  held : List (Nat × Nat)
  unready : List Nat
  poison : List Nat
  deriving DecidableEq, Repr

/-- A queue never configured in the current kernel. -/
def CQueue.none : CQueue := ⟨false, 0, 0, 0, 0, 0, 0, [], [], []⟩

/-- A scalar result on its way: register, value, cycle from which it can be read (R125). -/
structure ScalarPend where
  reg : Nat
  val : Word64
  /-- Cycle of its operation's issue. -/
  issue : Nat
  due : Nat
  deriving DecidableEq, Repr

/-- A loop level (R126): first and end bundle of the body, iterations left after the running one. -/
structure LoopLevel where
  first : Nat
  last : Nat
  left : Nat
  deriving DecidableEq, Repr

/-- A panel product in the MAC buffer (R130): queue and entry of A and B, what is released at its end, bank, CLEAR, format pair word, A and B bytes. -/
structure Mma where
  qa : Nat
  ia : Nat
  /-- Number of the pop that holds the panel. -/
  popA : Nat
  relA : Bool
  qb : Nat
  ib : Nat
  popB : Nat
  relB : Bool
  bank : Nat
  clear : Bool
  pair : Nat
  a : Bytes
  b : Bytes
  /-- Drains issued on the bank before this operation and not yet read (R130). -/
  afterDrains : Nat
  deriving DecidableEq, Repr

/-- A drain (R131): bank, destination queue, output format, scale register value, rows pushed, whether it has started. -/
structure Drain where
  bank : Nat
  dst : Nat
  ofmt : Nat
  scale : Word32
  row : Nat
  started : Bool
  /-- Panel products of the bank issued before this drain and not yet ended (R131). -/
  afterMmas : Nat
  deriving DecidableEq, Repr

/-- A vector result whose token is to be set (R118): queue, entry, bytes, cycle. -/
structure VTok where
  q : Nat
  idx : Nat
  bytes : Bytes
  due : Nat
  deriving DecidableEq, Repr

/-- The checksum lanes of a bank (R161 to R163): C and W of each row, C' and W' of each column, scale blocks since the last CLEAR, the mismatch bit. Empty lists read as zeros. -/
structure Abft where
  c : List Word32
  w : List Word32
  c' : List Word32
  w' : List Word32
  nb : Nat
  bad : Bool
  deriving DecidableEq, Repr

/-- Lanes of a cleared bank. -/
def Abft.clear : Abft := ⟨[], [], [], [], 0, false⟩

/-- A load operation (R134): destination queue, descriptor words resolved at issue, next tile to request, tiles left to request, entries requested and not written (entry index, tile), hint, and whether it claims its queue's tail (R121). -/
structure LoadOp where
  dst : Nat
  words : List Nat
  part : Nat
  tile : Nat
  left : Nat
  asked : List (Nat × Nat)
  /-- Entries pushed at issue whose request waits for one of the 64 places (R114). -/
  queued : List (Nat × Nat)
  hint : Nat
  claims : Bool
  deriving DecidableEq, Repr

/-- A store operation (R134): source queue, descriptor words, next tile, entries left, counter, hint. -/
structure StoreOp where
  src : Nat
  words : List Nat
  part : Nat
  tile : Nat
  left : Nat
  ctr : Nat
  hint : Nat
  deriving DecidableEq, Repr

/-- The one atomic a core may have outstanding (R127): destination register, address, operation, 64-bit size, operand, compare value. -/
structure CoreAmo where
  /-- Cycle of its issue. -/
  issue : Nat
  dst : Nat
  addr : Nat
  op : Nat
  wide : Bool
  operand : Nat
  compare : Nat
  deriving DecidableEq, Repr

/-- A fill of the instruction store (R145): core-store offset, first bundle, bundles. -/
structure IFill where
  src : Nat
  dst : Nat
  count : Nat
  deriving DecidableEq, Repr

/-- What a bundle acts on; a trap of one slot takes the bundle's effects back whole (R123). -/
structure CoreData where
  pc : Nat
  sregs : List (Nat × Word64)
  pend : List ScalarPend
  /-- Results that reached their registers in the present cycle: register, cycle, cycle of issue (R125). -/
  landed : List (Nat × Nat × Nat)
  mf : List (Nat × Nat)
  /-- Format slots that the running bundle writes: the next bundle reads them (R124). -/
  mfNext : List (Nat × Nat)
  loops : List LoopLevel
  queues : List (Nat × CQueue)
  /-- Accumulator banks, row by row (128 × 256 FP32); an empty list reads as zeros. -/
  acc : List (Nat × List Word32)
  abft : List (Nat × Abft)
  macRun : Option Mma
  macWait : Option Mma
  drainRun : Option Drain
  drainWait : Option Drain
  vtoks : List VTok
  loads : List LoadOp
  stores : List StoreOp
  amo : Option CoreAmo
  /-- Fills in progress, oldest first (R145). -/
  ifill : List IFill
  prog : Nat
  /-- Entries popped by the running bundle's vector slot, released at its end (R118): queue and number of the pop. -/
  rel : List (Nat × Nat)
  /-- Where the next bundle lies once this one has issued, when a branch or loop decides it. -/
  nextPc : Option Nat
  bubble : Nat
  deriving DecidableEq, Repr

/-- A core at power-up or at the start of a kernel. -/
def CoreData.fresh : CoreData := ⟨0, [], [], [], [], [], [], [], [], [], none, none, none, none, [], [], [], none, [], 0, [], none, 0⟩

/-- A core's run state. -/
structure Core where
  run : Bool
  /-- The bundle at the program counter has been fetched and `before` taken. -/
  fetched : Bool
  /-- Slots of the running bundle that have acted: 0 none, 1 sync, 2 scalar, 3 vector, 4 matrix, 5 load, 6 store. -/
  slot : Nat
  /-- The core's own cycle count, the cycle of the last watchdog restart (R143), and the cycle at which the bundle reached its sync slot (R138). -/
  cycle : Nat
  wdogFrom : Nat
  syncFrom : Nat
  d : CoreData
  /-- The state at the start of the running bundle. -/
  before : CoreData
  /-- `sy.bar` number reached and waiting; released. -/
  barrier : Option Nat
  released : Bool
  /-- Ended its part of the kernel (R140). -/
  ended : Bool
  /-- Waiting at `sy.swpt` for a switch (R144). -/
  atSwitch : Bool
  /-- Issued KERNEL it runs. -/
  kernel : Option Nat
  deriving DecidableEq, Repr

/-- A core that runs no kernel. -/
def Core.idle : Core := ⟨false, false, 0, 0, 0, 0, CoreData.fresh, CoreData.fresh, none, false, false, false, none⟩

/-- A stop of a group in progress (R141): issued KERNEL and the status it will complete with. -/
structure GroupStop where
  cmdId : Nat
  status : Nat
  /-- Cycle and logical core of the trap that decides. -/
  cycle : Nat
  logical : Nat
  deriving DecidableEq, Repr

/-- State of a physical core in the maps (R148, R149): 0 enabled, 1 spare, 2 retired, 3 pending; logical number, 0xFF none. -/
structure CoreMap where
  st : Nat
  logical : Nat
  deriving DecidableEq, Repr

/-- The map with no retirement recorded: on each die the first 88 physical cores are enabled and serve the logical numbers in order (R15, R148; log entry 10). -/
def CoreMap.initial (n : Nat) : CoreMap := if n % 96 < 88 then ⟨0, n / 96 * 88 + n % 96⟩ else ⟨1, 0xFF⟩

/-- A saved logical core (R144, R280): partition, logical core, core data, core store bytes (offset, byte), bundles. -/
structure SavedCore where
  part : Nat
  logical : Nat
  core : Core
  store : List (Nat × Byte)
  code : List (Nat × Bundle)
  /-- Wrong symbols of its bundles' halves (R146). -/
  codeWrong : List (Nat × Nat)
  deriving DecidableEq, Repr

/-- Who asked for a conversion (R387). -/
inductive ConvOwner where
  | sample (id : Nat)
  | now (z : Nat) (r : Requester)
  | sideband
  | option
  deriving DecidableEq, Repr

/-- A conversion in progress (R387): its zones, who asked, and the tick it started. -/
structure Conv where
  zones : List Nat
  owner : ConvOwner
  start : Nat
  deriving DecidableEq, Repr

/-- The device states (R379) and the conversions beyond their registers. -/
structure Power where
  /-- Target of the accepted request, the tick of its acceptance, and whether its entry still runs. -/
  target : Nat
  acceptedAt : Nat
  entering : Bool
  /-- A wake that waits for the entry to complete; the tick at which Dawn began; its failures; the tick its present stage began. -/
  wakePend : Bool
  dawnAt : Option Nat
  dawnFails : Nat
  stageAt : Nat
  /-- Host accesses that wait for Day (R381), as the commands that make them. -/
  hostHeld : List Instr
  /-- Instant from which the guard's window has stayed below RELEASE (R391). -/
  belowFrom : Option Nat
  /-- Sensors found implausible before: zone × 4 + sensor (R387). -/
  badSensors : List Nat
  convs : List Conv
  /-- Tick at which each port last relayed a frame (R377, R382). -/
  relayAt : List (Nat × Nat)
  /-- Ports that were UP when the block went dark (R301, R380). -/
  dark : List Nat
  deriving DecidableEq, Repr

/-- An SPDM connection (R363): version, capabilities and algorithms agreed, session open, transcript, last measurements answered. -/
structure Spdm where
  version : Nat
  caps : Bool
  algs : Bool
  session : Nat
  transcript : Bytes
  lastMeas : Bytes
  deriving DecidableEq, Repr

/-- The connection before GET_VERSION. -/
def Spdm.fresh : Spdm := ⟨0, false, false, 0, [], []⟩

/-- An option-store write in progress (R360). -/
structure OptWrite where
  offset : Nat
  data : Bytes
  deriving DecidableEq, Repr

/-- The security engine beyond its registers (R356 to R371). -/
structure Trust where
  /-- The ROM's copy of the image under verification, and the running firmware. -/
  image : Bytes
  firmware : Bytes
  /-- Time base at the last release of a cold or warm reset (R404). -/
  releaseNs : Int
  optWrite : Option OptWrite
  /-- SPDM connections by transport: 0 the host's DOE mailbox, 1 the sideband mailbox, 2 + n link port n. -/
  spdm : List (Nat × Spdm)
  /-- Frames of an SPDM message that arrives over a link, by arrival port. -/
  spdmIn : List (Nat × List Frame)
  /-- Last completed weight measurement of each partition (index 0x10 + p). -/
  wmeas : List (Nat × Bytes)
  /-- Frames of the sideband mailbox: towards the recovery core, and from it (R311). -/
  mailIn : List Bytes
  mailOut : List Bytes
  /-- Tick at which FK_HOST_DENIED was last posted (R369). -/
  deniedAt : Option Nat
  /-- Pairs of management cores that have stopped (R351): bit k. -/
  mcStopped : Nat
  /-- Read-only copy of the option image in the GLOBAL region (R13). -/
  optImage : Bytes
  deriving DecidableEq, Repr

/-- Resets in progress (R396 to R402). -/
structure Resets where
  cold : Bool
  /-- Tick at which warm reset was asserted, while it is. -/
  warm : Option Nat
  /-- FK_START_LATE is due at the next release (R404). -/
  lateDue : Bool
  /-- Units in reset: class and instance (R402). -/
  units : List (Nat × Nat)
  /-- Partitions whose reset waits for a switch to end (R401). -/
  parts : List Nat
  /-- A checker or comparator failed at start-up (R342). -/
  startFail : Bool
  /-- Recovery firmware declared itself started (R405). -/
  recovered : Bool
  deriving DecidableEq, Repr

/-- A self-check in progress (R343): its first tick, and the partitions it switched out. -/
structure SelfCheck where
  start : Nat
  parts : List Nat
  /-- A fault was recorded meanwhile in a unit that the self-check tests (R354). -/
  faulted : Bool
  deriving DecidableEq, Repr

/-- What the block puts out: answers to reads, frames, messages, pin changes. -/
inductive Out where
  /-- Answer to a control-space read: offset, width in bits, value. -/
  | regRead (offset width value : Nat)
  /-- An access refused with Unsupported Request (R11). -/
  | unsupported (offset : Nat)
  /-- Answer to a CXL.mem read: data, poison (R314). -/
  | cxlData (data : Bytes) (poison : Bool)
  /-- Completion of a CXL.mem write. -/
  | cxlDone
  /-- A frame that left a port. -/
  | frame (port : Nat) (f : Frame)
  /-- A message answered on a channel: kind (the command's own number in the notes), bytes. -/
  | message (kind : Nat) (body : Bytes)
  /-- A memory-device mailbox command completed with Unsupported (R312). -/
  | mboxUnsupported (opcode : Nat)
  /-- A pin driven to a level: number of the signal in the notes, level. -/
  | pin (signal : Nat) (level : Bool)
  deriving DecidableEq, Repr

/-- The block but for what no reset touches and for the queue of commands. -/
structure Mach where
  /-- Every field of the register tables, by field and index; an unlisted one holds its value after cold reset. -/
  regs : List (RKey × Nat)
  time : TimeBase
  /-- The model's own counter behind free values (log entry 6). -/
  fresh : Nat
  /-- Bytes of the stacks (bank-view address) and of the core stores; unlisted bytes read zero. -/
  mem : List (Nat × Byte)
  /-- Written map (R218): granules whose bit is set, stack × 2²⁵ + granule. -/
  written : List (Nat × Bool)
  /-- Codewords (address / 16) with one or two wrong symbols (R327 to R329). -/
  wrong : List (Nat × Nat)
  /-- Words of the written map that are uncorrectable (R222): stack × 2¹⁸ + word. -/
  wmWrong : List (Nat × Bool)
  cache : List (Nat × CacheUnit)
  /-- Instruction stores: core × 4,096 + bundle. -/
  istore : List (Nat × Bundle)
  /-- Uncorrectable bundles. -/
  istoreWrong : List (Nat × Nat)
  /-- Session-table entries with an uncorrectable codeword: bit c for copy c (R327, R330). -/
  sessWrong : List (Nat × Nat)
  /-- Bytes of host memory that the block has written. -/
  hostMem : List (Nat × Byte)
  seqtab : List (Nat × SEntry)
  sq : Sequencer
  mons : List (Nat × Mon)
  traceStage : List Bytes
  /-- Descriptor slots: partition × 4,096 + index; creations being validated (R176). -/
  descs : List (Nat × DescSlot)
  creating : List (Nat × List Nat)
  /-- Allocation writes of sealed partitions that wait for their forgets (R370): partition, entry, LEN word or not, value. -/
  allocPend : List (Nat × Nat × Bool × Nat)
  forgets : List Forget
  /-- Page-pool ADDs in progress (R235): partition × 16 + stack, first page, pages. -/
  adds : List (Nat × Nat × Nat)
  /-- Place of the oldest page in a pool's ring (R233): partition × 16 + stack. -/
  poolHead : List (Nat × Nat)
  stackTab : List (Nat × Stack)
  /-- Banks: stack × 512 + bank. -/
  banks : List (Nat × Bank)
  items : List Item
  nextItem : Nat
  rowCopy : Option RowCopy
  coreMap : List (Nat × CoreMap)
  cores : List (Nat × Core)
  groupStops : List GroupStop
  saved : List SavedCore
  doms : List (Nat × Dom)
  farOps : List FarOp
  /-- Slots as the expanders store them (R322): ciphertext of 8 KiB. -/
  farData : List (Nat × Bytes)
  /-- Slots whose last write was cut off by a lost link: their stored data is gone (R323). -/
  farLost : List (Nat × Bool)
  txq : List TxEntry
  transfers : List Transfer
  frags : List Frag
  /-- Frame counters heard, by key slot. -/
  rxcnt : List (Nat × RxCount)
  /-- Ports that have received a frame since LINK[n].FEC was last read (log entry 125). -/
  fecHeard : List (Nat × Bool)
  requests : List Request
  nextRid : Nat
  /-- Frame counters of the link key slots (R297). -/
  fcnt : List (Nat × Nat)
  pair : Pair
  elog : List (Nat × LogEntry)
  /-- Keys (R366, R367): purpose × 4,096 + partition, or link slot; none is the empty string. -/
  keys : List (Nat × Bytes)
  /-- Tick at which FK_LINK_ROUTE was last recorded, by port (R291). -/
  routeNoted : List (Nat × Nat)
  /-- Ports whose receptacle holds no plug (R419). -/
  unplugged : List (Nat × Bool)
  /-- Ticks of FEC failures of the last millisecond, by port (R300). -/
  fecTimes : List (Nat × List Nat)
  /-- The HDM decoder's Error Not Committed bit (R313). -/
  hdmError : Bool
  /-- Stacks whose banks have served an ordinary access since a read of ACC.HOLDMAX (R213). -/
  accessed : List (Nat × Bool)
  /-- Modules of the host port that trained at 16 GT/s (R309). -/
  ucieSlow : List (Nat × Bool)
  switch : PartSwitch
  selfCheck : Option SelfCheck
  power : Power
  trust : Trust
  resets : Resets
  out : List Out
  deriving DecidableEq, Repr

/-- What no reset of the block touches. -/
structure NonVol where
  /-- Anti-rollback fuses blown (R357), at most 128. -/
  arb : Nat
  /-- The 64 KiB option store (R360), by offset. -/
  opt : List (Nat × Byte)
  deriving DecidableEq, Repr

/-- The reasons a command stops the machine. -/
inductive Fault where
  /-- COLD_RESET_ASSERT with a pulse on MRST_N of 2 to 10 µs, whose effect R398 (spec/16_reset_and_dawn.md) calls undefined. Safe: the model stops where the spec says nothing. -/
  | pulseUndefined
  deriving DecidableEq, Repr

/-- The reasons a command has no meaning. -/
inductive Refusal where
  /-- A command of the table that has no meaning yet: its mnemonic. Raised by Dispatch only. Safe. -/
  | notModelled (mnemonic : String)
  /-- An operand names a unit the block does not have (a core above 191, a partition above 15, a port above 15). Raised by every meaning whose operand is a unit's number. Safe: no such command can be sent. -/
  | noSuchUnit
  deriving DecidableEq, Repr

/-- The state of the block: what resets leave, the rest, and the commands that wait, first in first out. -/
structure State where
  nv : NonVol
  m : Mach
  pending : List Instr
  deriving DecidableEq, Repr

def Sync.fresh : Sync := ⟨[], none, 0x3FF, 63, 0, 0, 0, false, 0⟩
def TimeBase.reset : TimeBase := ⟨0, false, none, none, Sync.fresh⟩
def Sequencer.reset : Sequencer := ⟨[], [], 0, [], [], [], [], [], [], [], [], [], false, [], 0⟩
def Power.reset : Power := ⟨0, 0, false, false, none, 0, 0, [], none, [], [], [], []⟩
def Trust.reset : Trust := ⟨[], [], 0, none, [], [], [], [], [], none, 0, []⟩
def Resets.reset : Resets := ⟨false, none, false, [], [], false, false⟩
def Pair.reset : Pair := ⟨[], [], none, none, 0, 0⟩

/-- The block right after cold reset (R19, R28 and the "After reset" columns). -/
def Mach.reset : Mach where
  regs := []
  time := TimeBase.reset
  fresh := 0
  mem := []
  written := []
  wrong := []
  wmWrong := []
  cache := []
  istore := []
  istoreWrong := []
  sessWrong := []
  hostMem := []
  seqtab := []
  sq := Sequencer.reset
  mons := []
  traceStage := []
  descs := []
  creating := []
  allocPend := []
  forgets := []
  adds := []
  poolHead := []
  stackTab := []
  banks := []
  items := []
  nextItem := 0
  rowCopy := none
  coreMap := []
  cores := []
  groupStops := []
  saved := []
  doms := []
  farOps := []
  farData := []
  farLost := []
  txq := []
  transfers := []
  frags := []
  rxcnt := []
  fecHeard := []
  accessed := []
  requests := []
  nextRid := 0
  fcnt := []
  pair := Pair.reset
  elog := []
  keys := []
  routeNoted := []
  unplugged := []
  fecTimes := []
  hdmError := false
  ucieSlow := []
  switch := ⟨0, 0, 0, none, []⟩
  selfCheck := none
  power := Power.reset
  trust := Trust.reset
  resets := Resets.reset
  out := []

/-- The machine right after cold reset. -/
def State.reset : State := ⟨⟨0, []⟩, Mach.reset, []⟩

end Sys2Proof.Machine
end

