-- ==== Sys2Proof/Machine/Flags.lean ====
section
/-! DEFINITION. Status codes and their classes (R7, R8 and each chapter's table), fault kinds (R142, R347, R372, R392, R408) with their severities, and the status a command with items takes (R103). -/
namespace Sys2Proof.Machine

def stOk : Nat := 0x00
def stEmpty : Nat := 0x01
def stPartial : Nat := 0x02
def stPresent : Nat := 0x03
def stDegraded : Nat := 0x04
def stPoolEmpty : Nat := 0x10
def stBankOffline : Nat := 0x11
def stListFull : Nat := 0x12
def stPoolFull : Nat := 0x13
def stDescRange : Nat := 0x20
def stDescAlias : Nat := 0x21
def stDescStride : Nat := 0x22
def stDescHandle : Nat := 0x23
def stDescTile : Nat := 0x24
def stDescFormat : Nat := 0x25
def stDescTable : Nat := 0x26
def stDescRights : Nat := 0x27
def stDescMismatch : Nat := 0x28
def stSeqFormat : Nat := 0x29
def stItemFormat : Nat := 0x2A
def stPageCheck : Nat := 0x2B
def stPageFar : Nat := 0x2C
def stItemSession : Nat := 0x2D
def stCmdOpcode : Nat := 0x2E
def stCmdField : Nat := 0x2F
def stUe : Nat := 0x30
def stPoison : Nat := 0x31
def stFarAuth : Nat := 0x32
def stAuthFail : Nat := 0x33
def stRollback : Nat := 0x34
def stNoRemoteAtomic : Nat := 0x40
def stAddrInvalid : Nat := 0x41
def stSealCount : Nat := 0x42
def stSealTimeout : Nat := 0x43
def stAtomicTarget : Nat := 0x44
def stLinkLost : Nat := 0x45
def stLinkDown : Nat := 0x46
def stPairMismatch : Nat := 0x47
def stFarDown : Nat := 0x48
def stKeyAbsent : Nat := 0x49
def stDeadline : Nat := 0x50
def stWithdrawn : Nat := 0x51
def stSchedExternal : Nat := 0x52
def stAbft : Nat := 0x60
def stCoreTrap : Nat := 0x61
def stCoreAbsent : Nat := 0x62
def stPreempted : Nat := 0x70
def stReset : Nat := 0x71
def stPartMismatch : Nat := 0x72
def stSessionState : Nat := 0x73
def stTempRange : Nat := 0x80

/-- A success code (R8). -/
def isOk (st : Nat) : Bool := decide (st < 0x10)

/-- Statuses that take the Step reaction (R349). -/
def takesStep (st : Nat) : Bool := (0x30 ≤ st && st ≤ 0x3F) || (0x60 ≤ st && st ≤ 0x6F)

/-- The status of a command with items (R103). -/
def itemsStatus (sts : List Nat) : Nat :=
  if sts.isEmpty then stEmpty
  else if sts.all isOk then (if sts.any (· == stDegraded) then stDegraded else stOk)
  else if sts.any isOk then stPartial
  else (sts.find? (fun s => !isOk s)).getD stOk

/-- Items completed with a success code (R102). -/
def itemsDone (sts : List Nat) : Nat := (sts.filter isOk).length

/-! Fault kinds. -/
def fkIfetchUe : Nat := 0x01
def fkDataUe : Nat := 0x02
def fkAbft : Nat := 0x03
def fkIllegal : Nat := 0x04
def fkQUnderflow : Nat := 0x05
def fkQUnready : Nat := 0x06
def fkQOverflow : Nat := 0x07
def fkQSize : Nat := 0x08
def fkQCfg : Nat := 0x09
def fkQRewind : Nat := 0x0A
def fkQClaim : Nat := 0x0B
def fkMxBusy : Nat := 0x0C
def fkMxFormat : Nat := 0x0D
def fkLdstAddr : Nat := 0x0E
def fkLoopDepth : Nat := 0x0F
def fkIfillRace : Nat := 0x10
def fkWdog : Nat := 0x11
def fkLsLimit : Nat := 0x12
def fkAmoBusy : Nat := 0x13
def fkAmoRefused : Nat := 0x14
def fkCeRow : Nat := 0x20
def fkMemUe : Nat := 0x21
def fkMirrorFix : Nat := 0x22
def fkShedServe : Nat := 0x23
def fkSpanPoison : Nat := 0x24
def fkChecker : Nat := 0x25
def fkCopyUe : Nat := 0x26
def fkCmdUe : Nat := 0x27
def fkSessionUe : Nat := 0x28
def fkSpareOut : Nat := 0x29
def fkRetired : Nat := 0x2A
def fkSelfcheck : Nat := 0x2B
def fkLockstepSeq : Nat := 0x30
def fkLockstepMc : Nat := 0x31
def fkCmdPart : Nat := 0x32
def fkSeamCrc : Nat := 0x33
def fkThrottle : Nat := 0x40
def fkWmapUe : Nat := 0x41
def fkUcieMod : Nat := 0x50
def fkFarAuth : Nat := 0x58
def fkFarDown : Nat := 0x59
def fkFarReject : Nat := 0x5A
def fkFarPoison : Nat := 0x5B
def fkLinkDown : Nat := 0x60
def fkLinkFec : Nat := 0x61
def fkLinkAuth : Nat := 0x62
def fkLinkRights : Nat := 0x63
def fkLinkRoute : Nat := 0x64
def fkLinkMisroute : Nat := 0x65
def fkLinkLength : Nat := 0x66
def fkSealLate : Nat := 0x67
def fkSealTable : Nat := 0x68
def fkPairLost : Nat := 0x69
def fkPairSeq : Nat := 0x6A
def fkPairFence : Nat := 0x6B

def fkTripDie : Nat := 0x80
def fkTripDram : Nat := 0x81
def fkSensor : Nat := 0x82
def fkPguard : Nat := 0x83
def fkRail : Nat := 0x84
def fkPll : Nat := 0x85
def fkDawnStage : Nat := 0x86
def fkFwSig : Nat := 0x90
def fkFwRollback : Nat := 0x91
def fkOptSig : Nat := 0x92
def fkOptWrite : Nat := 0x93
def fkKeyAgree : Nat := 0x94
def fkHostDenied : Nat := 0x95
def fkImportAuth : Nat := 0x96
def fkOwner : Nat := 0x97
def fkStartLate : Nat := 0xA0
def fkUnitReset : Nat := 0xA1
def fkIsoAbort : Nat := 0xA2

/-- Severity of a fault kind (R347, R372, R392, R408). -/
def severityOf (kind : Nat) : Nat :=
  if kind ≤ 0x14 then 2
  else if [0x20, 0x22, 0x2A].contains kind then 0
  else if [0x25, 0x28, 0x2B, 0x30, 0x33, 0x6B, 0x80, 0x81, 0x84, 0x85, 0x86].contains kind then 3
  else if [0x21, 0x24, 0x26, 0x27, 0x41, 0x58, 0x59, 0x5B, 0x61, 0x62, 0x63, 0x68, 0x90, 0x91, 0x96, 0xA0].contains kind then 2
  else 1

/-- Envelope causes, in the order of TIME_ENV bits [14:8] (R40). -/
def causeThrottle : Nat := 1
def causePguard : Nat := 2
def causeFec : Nat := 4
def causeUe : Nat := 8
def causePreempt : Nat := 16
def causeAsap : Nat := 32
def causeNeighbour : Nat := 64

/-- The sticky bit of each cause (R40, R50). -/
def causeFields : List Fld :=
  [.TIME_ENV_THROTTLE, .TIME_ENV_PGUARD, .TIME_ENV_FEC, .TIME_ENV_UE, .TIME_ENV_PREEMPT, .TIME_ENV_ASAP, .TIME_ENV_NEIGHBOUR]

end Sys2Proof.Machine
end

