-- ==== Sys2Proof/Machine/Ops.lean ====
section
/-! DEFINITION. The named operations over registers and memory: reading and writing a register field, the local address map (R51 to R58), reads and writes of
stacks, core stores and host window with the stored-data code (R327 to R331), the written map (R218 to R222) and the shared cache (R14, R61 to R63, R259); with them the events (R89), trace records (R110 to R112) and fault records (R344 to R346) that they raise. -/
namespace Sys2Proof.Machine

/-- A change of the block's state that leaves what no reset touches, and the queue. -/
def State.onMach (s : State) (f : Mach → Mach) : State := { s with m := f s.m }

/-! ## Registers -/

/-- Width of a field. -/
def Fld.width (f : Fld) : Nat := f.info.hi + 1 - f.info.lo

/-- The stored value of a field. -/
def Mach.rd (m : Mach) (f : Fld) (i : Nat := 0) (j : Nat := 0) : Nat := look RKey.reset ⟨f, i, j⟩ m.regs

/-- A field takes a value, cut to its width. -/
def Mach.wr (m : Mach) (f : Fld) (v : Nat) (i : Nat := 0) (j : Nat := 0) : Mach :=
  { m with regs := store RKey.before RKey.reset ⟨f, i, j⟩ (trunc f.width v) m.regs }

/-- A counter rises by d and saturates at its largest value. -/
def Mach.inc (m : Mach) (f : Fld) (d : Nat := 1) (i : Nat := 0) (j : Nat := 0) : Mach :=
  m.wr f (satAdd f.width (m.rd f i j) d) i j

/-- A counter rises by d modulo its width. -/
def Mach.incMod (m : Mach) (f : Fld) (d : Nat := 1) (i : Nat := 0) (j : Nat := 0) : Mach := m.wr f (m.rd f i j + d) i j

/-- Bit k of a field is set. -/
def Mach.setB (m : Mach) (f : Fld) (k : Nat) (i : Nat := 0) (j : Nat := 0) : Mach := m.wr f (setBit (m.rd f i j) k) i j

/-- Bit k of a field is cleared. -/
def Mach.clrB (m : Mach) (f : Fld) (k : Nat) (i : Nat := 0) (j : Nat := 0) : Mach := m.wr f (clearBit (m.rd f i j) k) i j

/-- A one-bit field as a Bool. -/
def Mach.flag (m : Mach) (f : Fld) (i : Nat := 0) (j : Nat := 0) : Bool := m.rd f i j == 1

/-- A discarded or refused control-space access (R10, R11, and every rule that says so). -/
def Mach.badAcc (m : Mach) : Mach := m.inc .GLOBAL_BADACC_COUNT

/-- The current tick count (R22). -/
def Mach.tick (m : Mach) : Nat := m.time.ns / 100

/-- Its low 48 bits (R23). -/
def Mach.tick48 (m : Mach) : Nat := m.tick % 2 ^ 48

/-- A 48-bit tick value has passed (R23). -/
def Mach.passed (m : Mach) (x : Nat) : Bool := reached48 m.tick x

/-- Something the block puts out. -/
def Mach.emit (m : Mach) (o : Out) : Mach := { m with out := o :: m.out }

/-- A free value, and the state whose counter has moved past it (log entry 6). -/
def Mach.draw (m : Mach) : Nat × Mach := (Config.freeValue m.fresh, { m with fresh := m.fresh + 1 })

/-! ## Tables of the block -/

def Mach.core (m : Mach) (n : Nat) : Core := nget (fun _ => Core.idle) m.cores n
def Mach.setCore (m : Mach) (n : Nat) (c : Core) : Mach := { m with cores := nset (fun _ => Core.idle) m.cores n c }
def Mach.map (m : Mach) (n : Nat) : CoreMap := nget CoreMap.initial m.coreMap n
def Mach.setMap (m : Mach) (n : Nat) (c : CoreMap) : Mach := { m with coreMap := nset CoreMap.initial m.coreMap n c }
def Mach.stack (m : Mach) (n : Nat) : Stack := nget (fun _ => Stack.fresh) m.stackTab n
def Mach.setStack (m : Mach) (n : Nat) (v : Stack) : Mach := { m with stackTab := nset (fun _ => Stack.fresh) m.stackTab n v }
def Mach.bank (m : Mach) (n b : Nat) : Bank := nget (fun _ => Bank.idleBank) m.banks (n * 512 + b)
def Mach.setBank (m : Mach) (n b : Nat) (v : Bank) : Mach := { m with banks := nset (fun _ => Bank.idleBank) m.banks (n * 512 + b) v }
def Mach.mon (m : Mach) (p : Nat) : Mon := nget (fun _ => Mon.fresh) m.mons p
def Mach.setMon (m : Mach) (p : Nat) (v : Mon) : Mach := { m with mons := nset (fun _ => Mon.fresh) m.mons p v }
def Mach.sess (m : Mach) (i : Nat) : SEntry := nget (fun _ => SEntry.free) m.seqtab i
def Mach.setSess (m : Mach) (i : Nat) (v : SEntry) : Mach := { m with seqtab := nset (fun _ => SEntry.free) m.seqtab i v }
def Mach.desc (m : Mach) (p i : Nat) : DescSlot := nget (fun _ => DescSlot.fresh) m.descs (p * 4096 + i)
def Mach.setDesc (m : Mach) (p i : Nat) (v : DescSlot) : Mach := { m with descs := nset (fun _ => DescSlot.fresh) m.descs (p * 4096 + i) v }
def Dom.stopped : Dom := ⟨0, false, 0, 0⟩
def Mach.dom (m : Mach) (d : Nat) : Dom := nget (fun _ => Dom.stopped) m.doms d
def Mach.setDom (m : Mach) (d : Nat) (v : Dom) : Mach := { m with doms := nset (fun _ => Dom.stopped) m.doms d v }
def Mach.itemOf (m : Mach) (id : Nat) : Option Item := m.items.find? (fun it => it.id == id)
def Mach.setItem (m : Mach) (v : Item) : Mach := { m with items := m.items.map (fun it => if it.id = v.id then v else it) }
def Mach.issuedOf (m : Mach) (id : Nat) : Option Issued := m.sq.issued.find? (fun c => c.id == id)
def Mach.setIssued (m : Mach) (v : Issued) : Mach :=
  { m with sq := { m.sq with issued := m.sq.issued.map (fun c => if c.id = v.id then v else c) } }

/-- Physical core that serves a logical core, when one does (R148). -/
def Mach.physOf (m : Mach) (l : Nat) : Option Nat :=
  (List.range 192).find? (fun n => (m.map n).logical == l && ((m.map n).st == 0 || (m.map n).st == 3))

/-- A physical core that serves a logical core: enabled, or its retirement pending. -/
def Mach.coreEnabled (m : Mach) (n : Nat) : Bool := decide (n < 192) && ((m.map n).st == 0 || (m.map n).st == 3)

/-- Logical cores of group g of partition p (R284). -/
def Mach.groupLogical (m : Mach) (p g : Nat) : List Nat :=
  (List.range 176).filter (fun l => bit (m.rd .SEC_PART_CG_CORES p (g * 4 + l / 64)) (l % 64))

/-- Physical cores of a group, in logical order; none where a logical core is served by no physical core. -/
def Mach.groupPhys (m : Mach) (p g : Nat) : List (Option Nat) := (m.groupLogical p g).map m.physOf

/-- The group that holds a physical core, in some enabled partition: partition and group. -/
def Mach.groupOf (m : Mach) (n : Nat) : Option (Nat × Nat) :=
  ((List.range 64).find? (fun k => m.flag .SEC_PART_CTL_ENABLE (k / 4) && ((m.groupLogical (k / 4) (k % 4)).contains (m.map n).logical))).map
    (fun k => (k / 4, k % 4))

/-! ## Events -/

/-- An event counter rises by one; waits see it from the next tick (R89). -/
def Mach.raiseEvent (m : Mach) (p e : Nat) : Mach :=
  let m := m.incMod .SEQR_EVC_COUNT 1 p e
  { m with sq := { m.sq with evDelta := nset (fun _ => 0) m.sq.evDelta (p * 256 + e) (nget (fun _ => 0) m.sq.evDelta (p * 256 + e) + 1) } }

/-- Value of an event counter that waits of this tick are tested against (R31, R87). -/
def Mach.evStart (m : Mach) (p e : Nat) : Nat := m.rd .SEQR_EVC_COUNT p e + 2 ^ 48 - nget (fun _ => 0) m.sq.evDelta (p * 256 + e)

/-- Value of a token counter that waits of this tick are tested against. -/
def Mach.tokStart (m : Mach) (p q : Nat) : Nat := m.rd .SEQR_QDONE_COUNT p q + 2 ^ 48 - nget (fun _ => 0) m.sq.tokDelta (p * 32 + q)

/-! ## Trace -/

/-- A trace record of a kind is wanted for a partition (R113). -/
def Mach.traced (m : Mach) (p kind : Nat) : Bool :=
  m.flag .TRACE_CTL_EN && bit (m.rd .TRACE_CTL_PMASK) p && bit (m.rd .TRACE_CTL_KMASK) (kind - 1)

/-- The 32 bytes of a trace record (R110). -/
def traceRecord (kind p queue opcode tag ns : Nat) (data : Bytes) : Bytes :=
  toBytes 1 kind ++ toBytes 1 p ++ toBytes 1 queue ++ toBytes 1 opcode ++ toBytes 4 tag ++ toBytes 8 ns ++ slice data 0 16

/-- The record can be accepted for writing: the staging buffer of 4,096 records has room, and the ring is not full (R112). -/
def Mach.traceRoom (m : Mach) : Bool :=
  decide (m.traceStage.length < 4096) &&
    (m.flag .TRACE_CTL_WRAP || decide (m.rd .TRACE_WP_INDEX + m.traceStage.length < 2 ^ m.rd .TRACE_SIZE_LOG2))

/-- A trace record is staged, or dropped and counted; the staged ones are written as banks allow, at tick boundaries and at a bank's service (R112; log entry 123). -/
def Mach.trace (m : Mach) (kind p queue opcode tag : Nat) (data : Bytes) : Mach :=
  if m.traced p kind then
    if m.traceRoom then
      { m with traceStage := m.traceStage ++ [traceRecord kind p queue opcode tag m.time.ns data] }
    else m.inc .TRACE_DROP_COUNT
  else m

/-! ## Fault records -/

/-- A fault as it is detected (R344): partition whose stream it goes to, tag, address, source class and instance, kind. -/
structure FaultIn where
  part : Nat
  tag : Nat
  addr : Nat
  cls : Nat
  inst : Nat
  kind : Nat
  deriving DecidableEq, Repr

/-- Word 0 and word 1 of a fault record (R344). -/
def FaultIn.lo (f : FaultIn) : Nat := f.tag % 2 ^ 32 + (f.addr % 2 ^ 32) * 2 ^ 32
def FaultIn.hi (f : FaultIn) (tick : Nat) : Nat :=
  f.addr / 2 ^ 32 % 2 ^ 16 + (f.cls % 16) * 2 ^ 16 + (f.inst % 256) * 2 ^ 20 + (f.kind % 256) * 2 ^ 28 +
    severityOf f.kind * 2 ^ 36 + (f.part % 16) * 2 ^ 38 + 1 * 2 ^ 42 + tick % 2 ^ 18 * 2 ^ 46

/-- Word 1 after one more fault has merged into it: COUNT and the worse severity (R346). -/
def mergedHi (hi sev : Nat) : Nat :=
  let c := bits hi 45 42
  let s := bits hi 37 36
  hi + (if c < 15 then 2 ^ 42 else 0) + (if s < sev then (sev - s) * 2 ^ 36 else 0)

/-- Source classes whose units a self-check tests (R343): cores, stacks, quadrants, caches, sequencer, copy engines, seam. -/
def testedClass (cls : Nat) : Bool := [0, 1, 2, 3, 10, 11, 12].contains cls

/-- A fault in a tested unit during a self-check makes its result a fail (R354). -/
def Mach.faultInTest (m : Mach) (cls : Nat) : Mach :=
  { m with selfCheck := m.selfCheck.map (fun s => { s with faulted := s.faulted || testedClass cls }) }

/-- A fault met by a command of a queue and opcode posts a new record, or merges into the open one (R346), and writes its trace record (R110, R111). -/
def Mach.postBy (m : Mach) (f : FaultIn) (queue opcode : Nat) : Mach :=
  let p := f.part
  let t := m.tick48
  let m1 :=
    if bit (m.rd .FAULT_STATUS_OPEN) p then
      ((m.wr .FAULT_REC_HI (mergedHi (m.rd .FAULT_REC_HI p) (severityOf f.kind)) p).wr .FAULT_REC_LAST t p).inc .FAULT_PCFG_MERGED 1 p
    else
      let m := (((m.wr .FAULT_REC_LO f.lo p).wr .FAULT_REC_HI (f.hi t) p).wr .FAULT_REC_FIRST t p).wr .FAULT_REC_LAST t p
      let m := m.setB .FAULT_STATUS_OPEN p
      if m.flag .FAULT_PCFG_EVEN p then m.raiseEvent p (m.rd .FAULT_PCFG_EVENT p) else m
  (m1.faultInTest f.cls).trace 5 p queue opcode f.tag (toBytes 8 f.lo ++ toBytes 8 (f.hi t))

/-- A fault without a command: QUEUE 0xFF and OPCODE 0 in its trace record (R110). -/
def Mach.post (m : Mach) (f : FaultIn) : Mach := m.postBy f 0xFF 0

/-- A fault that an issued command met, under its tag; without a command where there is none. -/
def Mach.postFor (m : Mach) (id : Option Nat) (f : FaultIn) : Mach :=
  match id.bind m.issuedOf with
  | some c => m.postBy { f with tag := c.cmd.tag } c.queue c.cmd.opcode
  | none => m.post f

/-! ## Local addresses (R54 to R58) -/

/-- What a local address names. -/
inductive Loc where
  | stack (n b o : Nat)
  | far (off : Nat)
  | core (n off : Nat)
  | host (a : Nat)
  | invalid
  deriving DecidableEq, Repr

def bankBase : Nat := 0x500000000000
def coreBase : Nat := 0x700000000000
def farBase : Nat := 0x400000000000

/-- Bank-view local address of byte o of bank b of stack n (R56). -/
def bankAddr (n b o : Nat) : Nat := bankBase + n * 2 ^ 35 + b * 2 ^ 26 + o

/-- Core-store local address (R58). -/
def coreAddr (n off : Nat) : Nat := coreBase + n * 0x200000 + off

/-- Populated bytes of the far tier: the lower of the expanders' capacity and the seal table's slots (R54, R322). -/
def Mach.farBytes (m : Mach) : Nat := min (m.rd .FARCXL_STAT_GIB * 2 ^ 30) (m.rd .FARCXL_SEALTAB_SLOTS * 8192)

/-- The local map (R54) with the stripe of R55. -/
def Mach.locOf (m : Mach) (a : Nat) : Loc :=
  if a ≥ 2 ^ 48 then .invalid
  else if a ≥ 2 ^ 47 then .host (a - 2 ^ 47)
  else
    let top := bits a 47 44
    let s := bits a 38 35
    if top = 0 then
      if bits a 43 39 = 0 ∧ s < 12 then
        let g := bits a 34 8
        .stack s (xor9 g (g / 512) (g / 2 ^ 18)) (bits g 26 9 * 256 + a % 256)
      else .invalid
    else if top = 5 then
      if bits a 43 39 = 0 ∧ s < 12 then .stack s (bits a 34 26) (bits a 25 0) else .invalid
    else if top = 4 then
      if a - farBase < m.farBytes then .far (a - farBase) else .invalid
    else if top = 7 then
      let off := a - coreBase
      if off < 192 * 0x200000 ∧ m.coreEnabled (off / 0x200000) then .core (off / 0x200000) (off % 0x200000) else .invalid
    else .invalid

/-- Region of an address: 0 striped stacks, 1 bank view, 2 core stores, 3 far tier, 4 host window, 9 invalid. -/
def Mach.region (m : Mach) (a : Nat) : Nat :=
  match m.locOf a with
  | .stack _ _ _ => if bit a 46 then 1 else 0
  | .core _ _ => 2
  | .far _ => 3
  | .host _ => 4
  | .invalid => 9

/-- An address in the stacks, in either view. -/
def Mach.inStacks (m : Mach) (a : Nat) : Bool := m.region a == 0 || m.region a == 1

/-- Stack that an address in the stacks names. -/
def stackOf (a : Nat) : Nat := bits a 38 35

/-- Every byte of a range lies in one region and view (R54). -/
def Mach.rangeOk (m : Mach) (a n : Nat) : Bool :=
  m.region a != 9 && (n == 0 || (m.region (a + n - 1) == m.region a && (m.region a != 2 || (a - coreBase) / 0x200000 == (a + n - 1 - coreBase) / 0x200000)))

/-- One name for a byte of a stack or a core store, whatever view names it (R57). -/
def Mach.canon (m : Mach) (a : Nat) : Option Nat :=
  match m.locOf a with
  | .stack n b o => some (bankAddr n b o)
  | .core n off => some (coreAddr n off)
  | _ => none

def isStackC (c : Nat) : Bool := decide (bankBase ≤ c) && decide (c < bankBase + 12 * 2 ^ 35)

/-- Stack, bank and granule of a canonical stack address. -/
def cStack (c : Nat) : Nat := (c - bankBase) / 2 ^ 35
def cBank (c : Nat) : Nat := (c - bankBase) / 2 ^ 26 % 512
def cGranule (c : Nat) : Nat := (c - bankBase) / 1024

/-- The striped-view address of a canonical stack address (R55 in reverse). -/
def stripedOf (c : Nat) : Nat :=
  let o := (c - bankBase) % 2 ^ 26
  let h := o / 256
  cStack c * 2 ^ 35 + (xor9 (cBank c) h (h / 512) + h * 512) * 256 + o % 256

/-! ## Stored bytes -/

def Mach.memByte (m : Mach) (c : Nat) : Byte := nget (fun _ => 0) m.mem c
def Mach.granuleSet (m : Mach) (g : Nat) : Bool := nget (fun _ => false) m.written g

/-- The written-map word of granule g is uncorrectable (R222). -/
def Mach.mapWrong (m : Mach) (g : Nat) : Bool := nget (fun _ => false) m.wmWrong (g / 128)

def Mach.bankOffline (m : Mach) (n b : Nat) : Bool := bit (m.rd .STACK_OFFLINE_BANKS n (b / 64)) (b % 64)

/-- The byte of the array: zero where the granule's bit is clear (R219). -/
def Mach.arrayByte (m : Mach) (c : Nat) : Byte := if isStackC c && !m.granuleSet (cGranule c) then 0 else m.memByte c

/-- Wrong symbols that a read of the codeword meets: none in an unwritten granule, two where the map word is uncorrectable (R222, R329). -/
def Mach.wrongAt (m : Mach) (c : Nat) : Nat :=
  if isStackC c then
    if m.mapWrong (cGranule c) then 2
    else if m.granuleSet (cGranule c) then nget (fun _ => 0) m.wrong (c / 16) else 0
  else nget (fun _ => 0) m.wrong (c / 16)

/-- A stack address lies in an offline bank (R338). -/
def Mach.offlineAt (m : Mach) (c : Nat) : Bool := isStackC c && m.bankOffline (cStack c) (cBank c)

/-- Codeword h of the 32-byte unit that holds an address is uncorrectable in the array (R329). -/
def Mach.halfWrong (m : Mach) (c h : Nat) : Bool := decide (2 ≤ m.wrongAt (c / 32 * 32 + 16 * h))

/-- A read of the unit from the array is poisoned: one of its codewords is uncorrectable, or the bank is offline (R338, R354). -/
def Mach.arrayUe (m : Mach) (c : Nat) : Bool := m.halfWrong c 0 || m.halfWrong c 1 || m.offlineAt c

def CacheUnit.empty : CacheUnit := ⟨[], 0, 0, 0, 0, 0⟩
def Mach.unit (m : Mach) (u : Nat) : CacheUnit := nget (fun _ => CacheUnit.empty) m.cache u
def Mach.setUnit (m : Mach) (u : Nat) (v : CacheUnit) : Mach := { m with cache := nset (fun _ => CacheUnit.empty) m.cache u v }
def Mach.dropUnit (m : Mach) (u : Nat) : Mach := { m with cache := erase u m.cache }

/-- Codeword h of a unit as the cache and the array hold it is uncorrectable: the cache's own mark, and the array's where the cache does not hold all of it. -/
def Mach.halfUe (m : Mach) (c h : Nat) : Bool :=
  let u := m.unit (c / 32)
  bit u.poison h || (bits u.held (16 * h + 15) (16 * h) != 2 ^ 16 - 1 && m.halfWrong c h)

/-- A read of the unit through the shared cache is poisoned (R338, R354). -/
def Mach.cachedUe (m : Mach) (c : Nat) : Bool := m.halfUe c 0 || m.halfUe c 1 || m.offlineAt c

/-- The byte that a reader through the shared cache sees, and whether its unit is poisoned (R61, R331). -/
def Mach.cachedByte (m : Mach) (c : Nat) : Byte × Bool :=
  let u := m.unit (c / 32)
  (if bit u.held (c % 32) then nthD u.data (c % 32) 0 else m.arrayByte c, m.cachedUe c)

/-- A byte of host memory: what the block wrote there, else a free value (R60; log entry 7). -/
def Mach.hostByteAt (m : Mach) (h : Nat) : Byte := look (fun k => Config.hostByte m.fresh k) h m.hostMem

/-- Key of a purpose and index; the empty string where none is loaded (R366): 1 ring, 2 far tier, 3 link slot, 4 import. -/
def Mach.key (m : Mach) (purpose i : Nat) : Bytes := nget (fun _ => []) m.keys (purpose * 4096 + i)
def Mach.setKey (m : Mach) (purpose i : Nat) (k : Bytes) : Mach := { m with keys := nset (fun _ => []) m.keys (purpose * 4096 + i) k }

/-! ## Sealed slots of the far tier (R322) -/

/-- The 32-byte entry of slot s in the seal table, read through the shared cache. -/
def Mach.sealEntry (m : Mach) (s : Nat) : Bytes :=
  (List.range 32).map (fun i => match m.canon (m.rd .FARCXL_SEALTAB_BASE + s * 32 + i) with | some c => (m.cachedByte c).1 | none => 0)

/-- VERSION, PART and TAG of a seal-table entry. -/
def sealVersion (e : Bytes) : Nat := field e 0 6
def sealPart (e : Bytes) : Nat := field e 6 1 % 16
def sealTag (e : Bytes) : Bytes := slice e 16 16

/-- Nonce and additional data of slot s at a version (R322): the order of the additional data's three items is the rule's own. -/
def sealNonce (s version : Nat) : Nat := s % 2 ^ 29 * 2 ^ 48 + version
def sealAad (s version part : Nat) : Bytes := toBytes 4 s ++ toBytes 6 version ++ toBytes 1 part

/-- The 8 KiB of slot s, opened with the key of the partition that sealed it; zeros where it was never written; nothing where the tag fails. -/
def Mach.farOpen (m : Mach) (s : Nat) : Option Bytes :=
  let e := m.sealEntry s
  let v := sealVersion e
  if v = 0 then some (List.replicate 8192 0)
  else if nget (fun _ => false) m.farLost s then none
  else Config.gcmOpen (m.key 2 (sealPart e)) (sealNonce s v) (sealAad s v (sealPart e)) (nget (fun _ => []) m.farData s) (sealTag e)

/-- Partition p may read slot s: never written, or sealed by p and the tag verifies (R323). -/
def Mach.farReadable (m : Mach) (p s : Nat) : Bool :=
  let e := m.sealEntry s
  sealVersion e == 0 || (sealPart e == p && (m.farOpen s).isSome)

/-- One byte at a local address and whether it is poisoned; `dram` for the bank engines' direct path (R62, R217). -/
def Mach.byteAt (m : Mach) (dram : Bool) (a : Nat) : Byte × Bool :=
  match m.locOf a with
  | .stack n b o =>
    let c := bankAddr n b o
    if dram then (m.arrayByte c, m.arrayUe c) else m.cachedByte c
  | .core n off => (m.memByte (coreAddr n off), m.arrayUe (coreAddr n off))
  | .host h => (m.hostByteAt h, false)
  | .far off => (match m.farOpen (off / 8192) with | some bs => (nthD bs (off % 8192) 0, false) | none => (0, true))
  | .invalid => (0, true)

/-- n bytes from a local address. -/
def Mach.read (m : Mach) (dram : Bool) (a n : Nat) : Bytes := (List.range n).map (fun i => (m.byteAt dram (a + i)).1)

/-- The little-endian number in n bytes from a local address. -/
def Mach.readNat (m : Mach) (dram : Bool) (a n : Nat) : Nat := ofBytes (m.read dram a n)

/-- First addresses of the pieces of [a, a + n) that multiples of k cut. -/
def pieceStarts (k a n : Nat) : List Nat := ((List.range n).filter (fun i => i == 0 || (a + i) % k == 0)).map (a + ·)

/-- Some 32-byte unit that the range touches is poisoned (R354). -/
def Mach.readUe (m : Mach) (dram : Bool) (a n : Nat) : Bool := (pieceStarts 32 a n).any (fun s => (m.byteAt dram s).2)

/-- The pieces of a byte string laid at a, cut at multiples of k. -/
def pieces (k a : Nat) (bs : Bytes) : List (Nat × Bytes) :=
  (pieceStarts k a bs.length).map (fun s => (s, (bs.drop (s - a)).take (k - s % k)))

/-! ## Writes -/

/-- An armed injection flips symbols at this write to its codeword (R355, FAULT_INJ). -/
def Mach.injected (m : Mach) (c : Nat) : Option Nat :=
  if m.flag .FAULT_INJ_ARM && (m.canon (m.rd .FAULT_INJ_ADDR)).map (· / 16) == some (c / 16) then some (m.rd .FAULT_INJ_SYMS) else none

/-- Write bytes inside one codeword of the array. Answers whether the write was discarded because it covers only part of an uncorrectable codeword (R331). -/
def Mach.writeCodeword (m : Mach) (c : Nat) (bs : Bytes) : Mach × Bool :=
  if 2 ≤ m.wrongAt c ∧ bs.length < 16 then (m, true)
  else
    let mem := (List.range bs.length).foldl (fun l i => nset (fun _ => 0) l (c + i) (nthD bs i 0)) m.mem
    let inj := m.injected c
    let m := { m with mem := mem, wrong := nset (fun _ => 0) m.wrong (c / 16) (inj.getD 0) }
    (if inj.isSome then m.wr .FAULT_INJ_ARM 0 else m, false)

/-- Granule bits of a stack write: each is set; a zero-merge is counted where the bit was clear and the write does not cover the granule (R220). -/
def Mach.markGranule (m : Mach) (c n : Nat) : Mach :=
  let g := cGranule c
  if m.granuleSet g then m
  else
    let m' := { m with written := nset (fun _ => false) m.written g true }
    let m' := m'.incMod .STACK_WMSTAT_WRITTEN 1 (cStack c)
    if c % 1024 = 0 ∧ 1024 ≤ n then m' else m'.inc .STACK_WMSTAT_MERGES 1 (cStack c)

/-- A bank of the stack at a canonical address serves an ordinary access (R213). -/
def Mach.noteAccess (m : Mach) (c : Nat) : Mach := if isStackC c then { m with accessed := nset (fun _ => false) m.accessed (cStack c) true } else m

/-- An access that writes to an offline bank is discarded and counted (R338; log entry 108). -/
def Mach.discardWrite (m : Mach) (c : Nat) : Mach := m.inc .FAULT_CNT_OFFWR 1 (cStack c)

/-- Write of bytes of one bank to the array at a canonical address, in one operation per codeword; in an offline bank it is discarded and counted (R338). -/
def Mach.writeArray (m : Mach) (c : Nat) (bs : Bytes) : Mach × Bool :=
  if m.offlineAt c then (m.discardWrite c, false)
  else
  let m := if isStackC c then (pieceStarts 1024 c bs.length).foldl (fun m s => m.markGranule s (c + bs.length - s)) (m.noteAccess c) else m
  (pieces 16 c bs).foldl (fun (r : Mach × Bool) pc =>
    let w := r.1.writeCodeword pc.1 pc.2
    (w.1, r.2 || w.2)) (m, false)

/-- The mask of bytes [i, i + n) of a unit. -/
def byteMask (i n : Nat) : Nat := (2 ^ n - 1) * 2 ^ i

/-- Codewords of a unit that a write of bytes [i, i + n) covers whole. -/
def coveredHalves (i n : Nat) : Nat :=
  (if i = 0 ∧ 16 ≤ n then 1 else 0) + (if i ≤ 16 ∧ 32 ≤ i + n then 2 else 0)

/-- Bytes written into a unit of the cache; one that is allocated by the write lies in a way, for a partition. -/
def CacheUnit.write (u : CacheUnit) (i : Nat) (bs : Bytes) (dirty : Bool) (part way : Nat) : CacheUnit :=
  let mask := byteMask i bs.length
  { data := putBytes (slice u.data 0 32) i bs
    held := u.held ||| mask
    dirty := if dirty then u.dirty ||| mask else u.dirty
    poison := u.poison &&& (3 ^^^ coveredHalves i bs.length)
    part := if u.held = 0 then part else u.part
    way := if u.held = 0 then way else u.way }

/-- The bytes of a unit a write-back writes, as runs of dirty bytes per codeword. -/
def CacheUnit.dirtyRuns (u : CacheUnit) : List (Nat × Bytes) :=
  ((List.range 32).filter (fun i => bit u.dirty i && (i % 16 == 0 || !bit u.dirty (i - 1)))).map (fun i =>
    let n := ((List.range (16 - i % 16)).takeWhile (fun k => bit u.dirty (i + k))).length
    (i, slice u.data i n))

/-- Write back and invalidate one unit (R62, R331): whole poisoned codewords go back uncorrectable; answers whether a partial one was discarded. -/
def Mach.flushUnit (m : Mach) (u : Nat) : Mach × Bool :=
  let cu := m.unit u
  if m.offlineAt (u * 32) then (if cu.dirty = 0 then m.dropUnit u else (m.discardWrite (u * 32)).dropUnit u, false)
  else
  let r := cu.dirtyRuns.foldl (fun (r : Mach × Bool) pc =>
    let w := r.1.writeArray (u * 32 + pc.1) pc.2
    let m' := if bit cu.poison (pc.1 / 16) && pc.2.length == 16 then { w.1 with wrong := nset (fun _ => 0) w.1.wrong (u * 2 + pc.1 / 16) 2 } else w.1
    (m', r.2 || w.2)) (m, false)
  (r.1.dropUnit u, r.2)

/-- Units of 32 bytes in one of the 16 ways of a die's 96 MiB (R14, R259; log entry 84). -/
def wayUnits : Nat := 96 * 2 ^ 20 / 16 / 32

/-- A held unit lies in the cache of die d, in one of the ways given. -/
def inWays (d : Nat) (ways : List Nat) (e : Nat × CacheUnit) : Bool :=
  e.2.held != 0 && ways.contains e.2.way && cStack (e.1 * 32) / 6 == d

/-- A unit is evicted: written back where dirty, and recorded for partition 0 where part of that is discarded (R331). -/
def Mach.evictUnit (m : Mach) (u : Nat) : Mach :=
  let w := m.flushUnit u
  if w.2 then w.1.post ⟨0, 0, u * 32, 1, cStack (u * 32), fkMemUe⟩ else w.1

/-- The way in which an access of partition p allocates a unit in the cache of a stack's die: one of its mask with room, else the way of a unit that is evicted, which of them a free value (R259; log entry 84). -/
def Mach.allocWay (m : Mach) (p stack : Nat) : Nat × Mach :=
  let d := stack / 6
  let ways := setBits 16 (m.rd .SEC_PART_CWAYS_MASK p)
  match ways.find? (fun w => decide ((m.cache.filter (inWays d [w])).length < wayUnits)) with
  | some w => (w, m)
  | none =>
    let r := m.draw
    let l := m.cache.filter (inWays d ways)
    match l[r.1 % l.length]? with
    | some e => (e.2.way, r.2.evictUnit e.1)
    | none => (0, r.2)

/-- May an access of partition p allocate in the cache of the die of a stack: some way is its own, and the cache is not bypassed (R259, R342). -/
def Mach.mayAllocate (m : Mach) (p stack : Nat) : Bool :=
  m.rd .SEC_PART_CWAYS_MASK p != 0 && !bit (m.rd .FAULT_STATUS_CACHEBYP) (stack / 6)

/-- Write of bytes inside one 32-byte unit of a stack through the shared cache: a held unit takes it, else it allocates (keep) or goes to the array (stream). -/
def Mach.writeUnit (m : Mach) (p : Nat) (keep : Bool) (c : Nat) (bs : Bytes) : Mach × Bool :=
  let u := m.unit (c / 32)
  if u.held != 0 then ((m.markGranule c bs.length).setUnit (c / 32) (u.write (c % 32) bs true p 0), false)
  else if keep && m.mayAllocate p (cStack c) then
    let a := m.allocWay p (cStack c)
    ((a.2.markGranule c bs.length).setUnit (c / 32) (CacheUnit.empty.write (c % 32) bs true p a.1), false)
  else m.writeArray c bs

/-- Write of bytes to host memory through the host window: posted (R60). -/
def Mach.writeHost (m : Mach) (h : Nat) (bs : Bytes) : Mach :=
  { m with hostMem := (List.range bs.length).foldl (fun l i => put natBefore (h + i) (nthD bs i 0) l) m.hostMem }

/-- One access that writes at most 256 bytes of one bank through the shared cache (R212), unit by unit; one to an offline bank is discarded. -/
def Mach.writeUnits (m : Mach) (p : Nat) (keep : Bool) (c : Nat) (bs : Bytes) : Mach × Bool :=
  if m.offlineAt c then (m.discardWrite c, false)
  else (pieces 32 c bs).foldl (fun (r : Mach × Bool) pc => let w := r.1.writeUnit p keep pc.1 pc.2; (w.1, r.2 || w.2)) (m, false)

/-- Write of bytes at a local address of the block itself by an accessor that goes through the shared cache. Answers whether part of it was discarded (R331). -/
def Mach.writeLocal (m : Mach) (p : Nat) (keep : Bool) (a : Nat) (bs : Bytes) : Mach × Bool :=
  (pieces 256 a bs).foldl (fun (r : Mach × Bool) pc =>
    match r.1.locOf pc.1 with
    | .stack n b o => let w := r.1.writeUnits p keep (bankAddr n b o) pc.2; (w.1, r.2 || w.2)
    | .core n off => let w := r.1.writeArray (coreAddr n off) pc.2; (w.1, r.2 || w.2)
    | .host h => (r.1.writeHost h pc.2, r.2)
    | _ => r) (m, false)

/-- A whole slot is sealed under partition p's key at the next VERSION and stored; its seal-table entry follows (R322). -/
def Mach.farSeal (m : Mach) (p s : Nat) (bs : Bytes) : Mach :=
  let v := (sealVersion (m.sealEntry s) + 1) % 2 ^ 48
  let r := Config.gcmSeal (m.key 2 p) (sealNonce s v) (sealAad s v p) bs
  let m := { m with farData := nset (fun _ => []) m.farData s r.1, farLost := nset (fun _ => false) m.farLost s false }
  (m.writeLocal 0 false (m.rd .FARCXL_SEALTAB_BASE + s * 32) (toBytes 6 v ++ toBytes 1 p ++ List.replicate 9 0 ++ slice r.2 0 16)).1

/-- Write of bytes to the far tier, slot by slot: a partial one reads, opens and merges first and counts in RMW (R322). Answers whether a slot could not be opened. -/
def Mach.writeFar (m : Mach) (p a : Nat) (bs : Bytes) : Mach × Bool :=
  (pieces 8192 (a - farBase) bs).foldl (fun (r : Mach × Bool) pc =>
    let s := pc.1 / 8192
    if pc.2.length = 8192 then (r.1.farSeal p s pc.2, r.2)
    else if r.1.farReadable p s then
      match r.1.farOpen s with
      | some old => ((r.1.inc .FARCXL_TRAFFIC_RMW).farSeal p s (putBytes old (pc.1 % 8192) pc.2), r.2)
      | none => (r.1, true)
    else (r.1, true)) (m, false)

/-- Write of bytes at a local address (R54): the far tier by slots, every other region through the shared cache. Answers whether part of it was discarded. -/
def Mach.write (m : Mach) (p : Nat) (keep : Bool) (a : Nat) (bs : Bytes) : Mach × Bool :=
  if m.region a = 3 then m.writeFar p a bs else m.writeLocal p keep a bs

/-- Write of bytes straight to the array of a stack: the bank engines' path (R217). In the bank view a granule is written as one (R211, R220; log entry 85). -/
def Mach.writeDram (m : Mach) (a : Nat) (bs : Bytes) : Mach × Bool :=
  (pieces (if bankBase ≤ a then 1024 else 256) a bs).foldl (fun (r : Mach × Bool) pc =>
    match r.1.canon pc.1 with
    | some c => let w := r.1.writeArray c pc.2; (w.1, r.2 || w.2)
    | none => r) (m, false)

/-- What a read through the cache leaves there: `keep` allocates the whole unit (R61); `drop` discards it after last use without write-back. An access that may not allocate counts as stream (R259, R342). -/
def Mach.touchUnit (m : Mach) (p : Nat) (hint : Nat) (c : Nat) : Mach :=
  let k := c / 32
  if !m.mayAllocate p (cStack c) then m
  else if hint = 2 then m.dropUnit k
  else if hint = 0 && !m.offlineAt c && (m.unit k).held != 2 ^ 32 - 1 then
    let base := k * 32
    let u := m.unit k
    let a := if u.held = 0 then m.allocWay p (cStack c) else (u.way, m)
    let m := a.2
    m.setUnit k
      { data := (List.range 32).map (fun i => (m.cachedByte (base + i)).1)
        held := 2 ^ 32 - 1
        dirty := u.dirty
        poison := b2n (m.halfUe base 0) + 2 * b2n (m.halfUe base 1)
        part := if u.held = 0 then p else u.part
        way := a.1 }
  else m

/-- A forget clears the bits of a granule range of a stack; its bytes read zero and its codewords are clean (R221). -/
def Mach.clearGranules (m : Mach) (stack base len : Nat) : Mach :=
  let lo := stack * 2 ^ 25 + base
  let inR (g : Nat) : Bool := decide (lo ≤ g) && decide (g < lo + len)
  let gone := (m.written.filter (fun e => inR e.1 && e.2)).length
  let m := { m with
    written := m.written.filter (fun e => !inR e.1)
    mem := m.mem.filter (fun e => !(isStackC e.1 && inR (cGranule e.1)))
    wrong := m.wrong.filter (fun e => !(isStackC (e.1 * 16) && inR (cGranule (e.1 * 16))))
    wmWrong := m.wmWrong.filter (fun e => !(decide (lo ≤ e.1 * 128) && decide (e.1 * 128 + 128 ≤ lo + len))) }
  m.wr .STACK_WMSTAT_WRITTEN (m.rd .STACK_WMSTAT_WRITTEN stack - gone) stack

/-- The cache of the stack's die loses its lines of a granule range without write-back (R221). -/
def Mach.invalidateGranules (m : Mach) (stack base len : Nat) : Mach :=
  let lo := stack * 2 ^ 25 + base
  { m with cache := m.cache.filter (fun e => !(isStackC (e.1 * 32) && decide (lo ≤ cGranule (e.1 * 32)) && decide (cGranule (e.1 * 32) < lo + len))) }

/-- A whole forget in one operation: the form a PAGE item and the resets use (R221, R237). -/
def Mach.forgetNow (m : Mach) (stack base len : Nat) : Mach := (m.invalidateGranules stack base len).clearGranules stack base len

/-! ## Allocations (R173) -/

/-- Entry a of partition p covers [x, x + n) in the view x names. -/
def Mach.allocCovers (m : Mach) (p a x n : Nat) : Bool :=
  let base := m.rd .SEC_ALLOC_BASE p a
  let len := m.rd .SEC_ALLOC_LEN p a
  len != 0 && decide (base ≤ x) && decide (x + n ≤ base + len)

/-- Some allocation of partition p grants [x, x + n) with the right asked for. -/
def Mach.allowed (m : Mach) (p : Nat) (wr : Bool) (x n : Nat) : Bool :=
  (List.range 256).any (fun a => m.allocCovers p a x n && m.flag (if wr then .SEC_ALLOC_WRITE else .SEC_ALLOC_READ) p a)

/-- The allocations of partition p that carry the right asked for cover [x, x + n) together (R294, R422): from x on, entry by entry. -/
def Mach.grantedFrom (m : Mach) (p : Nat) (wr : Bool) : Nat → Nat → Nat → Bool
  | 0, _, n => n == 0
  | k + 1, x, n =>
    match (List.range 256).find? (fun a => m.allocCovers p a x 1 && m.flag (if wr then .SEC_ALLOC_WRITE else .SEC_ALLOC_READ) p a) with
    | some a =>
      let d := m.rd .SEC_ALLOC_BASE p a + m.rd .SEC_ALLOC_LEN p a - x
      n ≤ d || m.grantedFrom p wr k (x + d) (n - d)
    | none => n == 0

/-- Every byte of [x, x + n) lies in an allocation of partition p with the right asked for. -/
def Mach.granted (m : Mach) (p : Nat) (wr : Bool) (x n : Nat) : Bool := m.grantedFrom p wr 256 x n

/-- One entry with both rights (R235, R237). -/
def Mach.allowedRW (m : Mach) (p x n : Nat) : Bool :=
  (List.range 256).any (fun a => m.allocCovers p a x n && m.flag .SEC_ALLOC_READ p a && m.flag .SEC_ALLOC_WRITE p a)

end Sys2Proof.Machine
end

