-- ==== Sys2Proof/Machine/Integrity.lean ====
section
/-! DEFINITION. Events (R89), trace records (R110 to R112), envelope exits (R40 to R43), fault records (R344 to R346), the error log (R335, R336), output records (R271, R367) and the fault reactions (R348, R349). -/
namespace Sys2Proof.Machine

/-! ## The trace ring -/

/-- A bank that can take an ordinary access now: in a window, or with no item on it and no refresh slot open (R210). -/
def Mach.bankFree (m : Mach) (c : Nat) : Bool :=
  let b := m.bank (cStack c) (cBank c)
  b.phase == .window || (b.occupant.isNone && b.phase != .slot)

/-- Staged trace records whose ring slot's bank can take them are written, oldest first (R112). -/
def drainTrace : Nat → Bool → Mach → Mach
  | 0, _, m => m
  | k + 1, force, m =>
    match m.traceStage with
    | [] => m
    | r :: rest =>
      let wp := m.rd .TRACE_WP_INDEX
      let size := 2 ^ m.rd .TRACE_SIZE_LOG2
      let a := m.rd .TRACE_BASE_ADDR + wp % size * 32
      if !m.flag .TRACE_CTL_WRAP && decide (size ≤ wp) then
        drainTrace k force { m.inc .TRACE_DROP_COUNT with traceStage := rest }
      else match m.canon a with
        | some c =>
          if force || m.bankFree c then
            let w := m.write 0 false a r
            drainTrace k force { w.1.incMod .TRACE_WP_INDEX with traceStage := rest }
          else m
        | none => drainTrace k force { m.inc .TRACE_DROP_COUNT with traceStage := rest }

/-! ## The timing envelope -/

/-- Cause bits set in TIME_ENV[p] (R40). -/
def Mach.setCauses (m : Mach) (p causes : Nat) : Mach :=
  (List.range 7).foldl (fun m k => if bit causes k then m.wr (nthD causeFields k .TIME_ENV_THROTTLE) 1 p else m) m

/-- Command c is outside the envelope: the cause bits set, and the exit reported when its partition was inside (R42, R43, R110). -/
def Mach.leaveEnv (m : Mach) (c : Issued) (causes : Nat) : Mach :=
  let p := c.part
  let m := m.setCauses p causes
  if m.flag .TIME_ENV_IN p then
    let m := (m.wr .TIME_ENV_IN 0 p).inc .TIME_ENV_COUNT 1 p
    let m := (m.wr .TIME_ENVLAST_TICK m.tick48 p).wr .TIME_ENVLAST_CAUSE causes p
    let m := m.setMon p { m.mon p with ooe := true }
    m.trace 4 p c.queue c.cmd.opcode c.cmd.tag (toBytes 1 causes ++ toBytes 6 m.tick48)
  else m

/-- The last issued command of a queue is known to be outside, for the one after it (R41). -/
def Mach.markPred (m : Mach) (c : Issued) : Mach :=
  match m.sq.issued.reverse.find? (fun x => x.part == c.part && x.queue == c.queue) with
  | some x =>
    if x.id = c.id then
      { m with sq := { m.sq with preds := m.sq.preds.map (fun e => if e.1 = c.part * 32 + c.queue then (e.1, { e.2 with out := true }) else e) } }
    else m
  | none => m

/-- An issued command is taken out of the envelope by causes (R40, R41). -/
def Mach.takeOut (m : Mach) (causes : Nat) (c : Issued) : Mach :=
  let c : Issued := { c with causes := c.causes ||| causes, ooe := true }
  ((m.setIssued c).markPred c).leaveEnv c causes

/-- Every issued command that a test selects is taken out of the envelope. -/
def Mach.takeOutWhere (m : Mach) (causes : Nat) (sel : Issued → Bool) : Mach :=
  m.sq.issued.foldl (fun m c => if sel c then m.takeOut causes c else m) m

/-- Stacks that a range of local addresses lies in. -/
def Mach.stacksOf (m : Mach) (a n : Nat) : List Nat :=
  if m.inStacks a && n != 0 then (List.range 12).filter (fun s => decide (stackOf a ≤ s) && decide (s ≤ stackOf (a + n - 1))) else []

/-- An issued command reads or writes bytes of stacks: outside the envelope where one is throttled (R40). -/
def Mach.throttleTouch (m : Mach) (id : Nat) (stackTab : List Nat) : Mach :=
  if stackTab.any (fun s => (m.stack s).throt) then
    (match m.issuedOf id with | some c => m.takeOut causeThrottle c | none => m)
  else m

/-! ## The error log (R335) and the correction counters (R328) -/

/-- LOC of the error log for a canonical address. -/
def logLoc (c : Nat) : Nat :=
  if isStackC c then
    let o := (c - bankBase) % 2 ^ 26
    cStack c + cBank c * 2 ^ 4 + (o / 2048) * 2 ^ 13 + (o % 2048 / 32) * 2 ^ 28 + (o % 32 / 16) * 2 ^ 34
  else (c - coreBase) / 0x200000 + ((c - coreBase) % 0x200000 / 16) * 256

/-- LOC of the written-map word that covers a stack address. -/
def mapLoc (c : Nat) : Nat := cStack c + cGranule c % 2 ^ 25 / 128 * 256

/-- An event at an array location enters the log, or counts in the entry it already has. -/
def Mach.logError (m : Mach) (typ symbol loc : Nat) : Mach :=
  match m.elog.find? (fun e => e.2.typ == typ && e.2.loc == loc) with
  | some (k, e) => { m with elog := nset (fun _ => ⟨0, 0, 0, 0, 0⟩) m.elog k { e with count := satAdd 16 e.count 1, tick := m.tick48 } }
  | none =>
    let k := m.rd .FAULT_ELOGWP_INDEX
    { m.incMod .FAULT_ELOGWP_INDEX with
      elog := nset (fun _ => ⟨0, 0, 0, 0, 0⟩) m.elog (k % 256) ⟨typ, symbol, 1, loc, m.tick48⟩ }

/-- Occurrences in the log of an event. -/
def Mach.logCount (m : Mach) (typ loc : Nat) : Nat :=
  match m.elog.find? (fun e => e.2.typ == typ && e.2.loc == loc) with
  | some e => e.2.count
  | none => 0

/-- A corrected codeword of a stack row: logged, the symbol a free value, and FK_CE_ROW posted when its count reaches the threshold (R336). -/
def Mach.logCorrected (m : Mach) (c : Nat) : Mach :=
  let loc := logLoc c
  let before := m.logCount 0 loc
  let r := m.draw
  let m := r.2.logError 0 (r.1 % 36) loc
  let t := m.rd .FAULT_CFG_CETHRESH
  if t != 0 && before + 1 == t then m.post ⟨0, 0, c, 1, cStack c, fkCeRow⟩ else m

/-- What reading one codeword of the array leaves: counted and logged when it was corrected or uncorrectable. -/
def Mach.noteCodeword (m : Mach) (c : Nat) : Mach :=
  let w := m.wrongAt c
  if isStackC c then
    if w = 1 then (m.inc .FAULT_CNT_CE 1 (cStack c)).logCorrected c
    else if 2 ≤ w then (m.inc .FAULT_CNT_UE 1 (cStack c)).logError (if m.mapWrong (cGranule c) then 0x51 else 1) 0xFF (if m.mapWrong (cGranule c) then mapLoc c else logLoc c)
    else m
  else
    let n := (c - coreBase) / 0x200000
    if w = 1 then (let r := m.draw; (r.2.inc .CORE_CSECC_CECOUNT 1 n).logError 0x20 (r.1 % 36) (logLoc c))
    else if 2 ≤ w then (m.inc .CORE_CSECC_UECOUNT 1 n).logError 0x21 0xFF (logLoc c)
    else m

/-- What a read of a range leaves in counters and log, over the whole units it touches (R328, R354); bytes the cache holds are not read from the array. -/
def Mach.noteRead (m : Mach) (dram : Bool) (a n : Nat) : Mach :=
  (pieceStarts 16 (a / 32 * 32) (if n = 0 then 0 else ceilDiv (a % 32 + n) 32 * 32)).foldl (fun m s =>
    match m.canon s with
    | some c => if !dram && isStackC c && bit (m.unit (c / 32)).held (c % 32) then m else (m.noteAccess c).noteCodeword c
    | none => m) m

/-- What a die-side read of a range leaves: error counts, and units allocated or dropped by its hint (0 keep, 1 stream, 2 discard after last use). -/
def Mach.afterRead (m : Mach) (p hint : Nat) (a n : Nat) : Mach :=
  let m := m.noteRead false a n
  (pieceStarts 32 a n).foldl (fun m s =>
    match m.locOf s with
    | .stack st b o => m.touchUnit p hint (bankAddr st b o)
    | _ => m) m

/-! ## Output records -/

/-- The 48 plaintext bytes of an output record (R271). -/
def outRecord (e : SEntry) (step kind flags shed status token len tick : Nat) (app : Bytes) : Bytes :=
  toBytes 4 e.id ++ toBytes 4 e.outseq ++ toBytes 4 step ++ toBytes 1 kind ++ toBytes 1 flags ++ toBytes 1 shed ++ toBytes 1 status ++
    toBytes 4 token ++ toBytes 4 len ++ toBytes 6 tick ++ toBytes 2 0 ++ slice app 0 10 ++ toBytes 6 0

/-- A record encrypted and sealed into its 64-byte slot (R367): under the ring key, or the all-zero key where none is loaded. -/
def Mach.sealRecord (m : Mach) (p session : Nat) (plain : Bytes) : Bytes :=
  let key := if (m.key 1 p).isEmpty then List.replicate 32 0 else m.key 1 p
  let nonce := field plain 0 4 * 2 ^ 64 + session * 2 ^ 48 + field plain 4 4 * 2 ^ 16
  let r := Config.gcmSeal key nonce (toBytes 1 p) plain
  slice r.1 0 48 ++ slice r.2 0 16

/-- The slot of a session's ring that a record with this SEQNO goes to (R271). -/
def Mach.ringSlot (m : Mach) (p session seqno : Nat) : Nat :=
  let n := 2 ^ m.rd .SEQR_OUT_LOG2 p
  m.rd .SEQR_OUT_BASE p + (session - m.rd .SEC_PART_RANGE_FIRST p) * n * 64 + seqno % n * 64

/-- In pair mode with PAIR.WRITE = 0 nothing goes to the rings, unless the block serves alone (R304). -/
def Mach.ringsQuiet (m : Mach) : Bool :=
  m.flag .LINK_PAIR_ENABLE && m.rd .LINK_PAIR_STATE != 3 && !m.flag .LINK_PAIR_WRITE

/-- A formed record goes to its session's ring. -/
def Mach.sendRecord (m : Mach) (p : Nat) (r : OutRec) : Mach :=
  if m.ringsQuiet then m
  else (m.write p false (m.ringSlot p r.session (field r.plain 4 4)) (m.sealRecord p r.session r.plain)).1

/-- Flags of an output record (R271). -/
def Mach.recordFlags (m : Mach) (p : Nat) (late : Bool) (e : SEntry) : Nat :=
  b2n (m.flag .SEQR_STEP_ALT p) + 2 * b2n late + 4 * b2n (m.mon p).degraded + 8 * b2n ((m.mon p).ooe || !m.flag .TIME_ENV_IN p) +
    16 * b2n (e.deadline != 0 && reached48 (m.rd .SEQR_STEP_START p) e.deadline)

/-- The present tick falls after the step's deadline (R270). -/
def Mach.stepLate (m : Mach) (p : Nat) : Bool :=
  let d := m.rd .SEQR_STEP_DEADLINE p
  d != 0 && m.passed d && m.tick48 != d

/-- Shed level in force for a session in the open step (R266, R271). -/
def Mach.shedOf (m : Mach) (p session : Nat) : Nat :=
  match (m.mon p).list.find? (fun s => s.1 == session) with
  | some s => s.2.2
  | none => (m.sess session).shed

/-- A withdraw marker for one session: the record, and the entry's changes (R268, R270, R348). -/
def Mach.marker (m : Mach) (p session status : Nat) : OutRec :=
  let e := m.sess session
  let late := m.stepLate p
  ⟨session, outRecord e (m.rd .SEQR_STEP_NUM p % 2 ^ 32) 4 (m.recordFlags p late e) (m.shedOf p session) status 0 e.len m.tick48 [],
    { e with outseq := satAdd 32 e.outseq 1, lastEnd := m.tick48, wdrSteps := satAdd 16 e.wdrSteps 1
             lateSteps := if late then satAdd 16 e.lateSteps 1 else e.lateSteps }⟩

/-- A session is withdrawn: it acts only with LISTED = 1 and WDR = 0 (R348). -/
def Mach.withdraw (m : Mach) (p status session : Nat) : Mach :=
  let e := m.sess session
  if e.listed && !e.wdr then
    let k := m.marker p session status
    (m.sendRecord p k).setSess session { k.after with wdr := true }
  else m

/-- Every listed session of the partition's open step is withdrawn, in list order. -/
def Mach.withdrawAll (m : Mach) (p status : Nat) : Mach :=
  if m.flag .SEQR_STEP_OPEN p then (m.mon p).list.foldl (fun m s => m.withdraw p status s.1) m else m

/-! ## Frames of the block's own, and the reactions -/

/-- Ports that are UP (R300). -/
def Mach.upPorts (m : Mach) : List Nat := (List.range 16).filter (fun n => m.rd .LINK_STATE_STATE n == 2)

/-- A hop-level frame of the block (R288). -/
def Mach.hopFrame (m : Mach) (typ : Nat) (data : Bytes) : Frame :=
  { typ := typ, env := 0, srcBlock := m.rd .GLOBAL_BLOCK_NUM, srcPart := 0, dstBlock := 0, dstPart := 0, hidx := 0, last := false, bad := false,
    keyslot := 0, route := 0, ret := 0, addr := 0, xfer := 0, len := ceilDiv data.length 32, rid := 0, status := 0, fcnt := 0,
    data := slice data 0 (ceilDiv data.length 32 * 32), tag := List.replicate 16 0 }

/-- A frame joins the queue of an output port, in its class (R292). -/
def Mach.enqueue (m : Mach) (port cls : Nat) (f : Frame) (owner : Option Nat) : Mach := { m with txq := m.txq ++ [⟨port, cls, f, owner⟩] }

/-- Firmware runs (R18, R20, R356; log entry 124). -/
def Mach.firmware (m : Mach) : Bool := m.rd .SEC_BOOT_STATE == 2

/-- STOP or START frames with a partition mask on every UP port (R302); a block without firmware originates none (R20). -/
def Mach.sendStop (m : Mach) (typ mask : Nat) : Mach :=
  if !m.firmware then m else m.upPorts.foldl (fun m n => m.enqueue n 1 (m.hopFrame typ (toBytes 32 mask)) none) m

/-- The digest of the partition's open step is bad, and that of an EMIT that has sent it already (R304, R348). -/
def Mach.markBad (m : Mach) (p : Nat) : Mach :=
  let m := m.setMon p { m.mon p with bad := true }
  { m with pair := { m.pair with waits := m.pair.waits.map (fun w => if w.part = p then { w with own := w.own.map (fun d => { d with bad := true }) } else w) } }

/-- The Step reaction for a partition (R348). -/
def Mach.reactStep (m : Mach) (p : Nat) : Mach :=
  let m := m.withdrawAll p stWithdrawn
  let m := (m.setB .FAULT_STOP_STOPPED p).sendStop 3 (2 ^ p)
  if m.flag .LINK_PAIR_ENABLE then m.markBad p else m

/-- The Item reaction: one session of the partition's open step (R348); during a pair EMIT it makes the own digest bad (R307). -/
def Mach.reactItem (m : Mach) (p session : Nat) : Mach :=
  if m.flag .SEQR_STEP_OPEN p then
    let m := m.withdraw p stWithdrawn session
    if m.pair.waits.any (fun w => w.part == p) then m.markBad p else m
  else m

/-- The Halt reaction (R348). -/
def Mach.reactHalt (m : Mach) : Mach :=
  (List.range 16).foldl (fun m p => m.reactStep p) (m.wr .FAULT_STATUS_HALT 1)

/-- A fault posted to every partition (a Halt affects all of them; R346), then the Halt reaction. -/
def Mach.haltWith (m : Mach) (cls inst kind : Nat) : Mach :=
  ((List.range 16).foldl (fun m p => m.post ⟨p, 0, 0, cls, inst, kind⟩) m).reactHalt

/-- The same for a fault of the sequencer, whose instance is the partition (R9): the record in each partition's stream names that partition (log entry 80). -/
def Mach.haltSequencer (m : Mach) (kind : Nat) : Mach :=
  ((List.range 16).foldl (fun m p => m.post ⟨p, 0, 0, 10, p, kind⟩) m).reactHalt

/-- An entry of the session table is read (R330): the other copy stands in for a wrong one and rewrites it, which is logged as corrected; with both wrong the block halts,
and the answer is true. -/
def Mach.readSess (m : Mach) (i : Nat) : Mach × Bool :=
  match nget (fun _ => 0) m.sessWrong i with
  | 0 => (m, false)
  | 3 => ((m.logError 0x61 0xFF (4 * i * 256)).haltSequencer fkSessionUe, true)
  | _ =>
    let r := m.draw
    (({ r.2 with sessWrong := nset (fun _ => 0) r.2.sessWrong i 0 } : Mach).logError 0x60 (r.1 % 36) (4 * i * 256), false)

/-- Partition p has an allocation, page pool or core group in a stack (R348). -/
def Mach.usesStack (m : Mach) (p n : Nat) : Bool :=
  (List.range 256).any (fun a => (m.stacksOf (m.rd .SEC_ALLOC_BASE p a) (m.rd .SEC_ALLOC_LEN p a)).contains n) ||
    m.flag .SEC_POOL_CFG_ENABLE p n

/-- Every bank of a stack is offline. -/
def Mach.allOffline (m : Mach) (n : Nat) : Bool := (List.range 8).all (fun w => m.rd .STACK_OFFLINE_BANKS n w == 2 ^ 64 - 1)

/-- A bank of stack n has gone offline: a retirement of it, or of the whole stack with its last bank, took effect (R337, R338). -/
def Mach.retired (m : Mach) (n : Nat) : Mach :=
  if m.rd .STACK_ID_STATE n = 0 ∨ (m.rd .STACK_ID_STATE n = 2 ∧ m.allOffline n) then (m.wr .FAULT_RETST_DONE 1).post ⟨0, 0, 0, 1, n, fkRetired⟩ else m

/-- A bank goes offline at its next yield point: at once where no item holds it (R338). -/
def Mach.offlineBank (m : Mach) (n b : Nat) : Mach :=
  let k := m.bank n b
  if bit (m.rd .STACK_OFFLINE_BANKS n (b / 64)) (b % 64) then m
  else if k.occupant.isSome then m.setBank n b { k with goingOffline := true }
  else ((m.setBank n b { k with goingOffline := false }).setB .STACK_OFFLINE_BANKS (b % 64) n (b / 64)).retired n

/-- Every bank of a stack goes offline at its next yield point (R338). -/
def Mach.offlineStack (m : Mach) (n state : Nat) : Mach :=
  (List.range 512).foldl (fun m b => m.offlineBank n b) (m.wr .STACK_ID_STATE state n)

/-- The Fence reaction on a stack (R342, R348): the stack offline (one that is retired stays so), Step for every partition with an open step that uses it; the fault posts to each of them and to partition 0. -/
def Mach.fenceStack (m : Mach) (n cls inst kind : Nat) : Mach :=
  let ps := (List.range 16).filter (fun p => m.flag .SEQR_STEP_OPEN p && m.usesStack p n)
  let m := (0 :: ps.filter (· != 0)).foldl (fun m p => m.post ⟨p, 0, 0, cls, inst, kind⟩) m
  ps.foldl (fun m p => m.reactStep p) (m.offlineStack n (if m.rd .STACK_ID_STATE n = 2 then 2 else 1))

/-! ## An uncorrectable error that a command meets -/

/-- An uncorrectable error is recorded under the tag of the command that met it, and takes that command out of the envelope (R40, R344). -/
def Mach.meetUe (m : Mach) (id : Option Nat) (p addr cls inst kind : Nat) : Mach :=
  let m := m.postFor id ⟨p, 0, addr, cls, inst, kind⟩
  match id.bind m.issuedOf with
  | some c => m.takeOut causeUe c
  | none => m

/-! ## Weight regions (R332 to R334) -/

/-- An address of a stack as the view of another address names it (R57). -/
def Mach.inViewOf (m : Mach) (base a : Nat) : Option Nat :=
  match m.canon a with
  | some c => if isStackC c then some (if bit base 46 then c else stripedOf c) else none
  | none => none

/-- Offset of the bytes at an address in weight region k, in the view BASE names, when the region is valid and covers them, whatever view names them (R57, R332). -/
def Mach.wregOffset (m : Mach) (k a : Nat) : Option Nat :=
  let base := m.rd .FAULT_WREG_BASE k
  if m.flag .FAULT_WREG_VALID k then
    (m.inViewOf base a).bind (fun x => if base ≤ x ∧ x < base + m.rd .FAULT_WREG_LEN k then some (x - base) else none)
  else none

/-- The region that covers the bytes at an address, and the offset there. -/
def Mach.wregOf (m : Mach) (a : Nat) : Option (Nat × Nat) :=
  (List.range 16).findSome? (fun k => (m.wregOffset k a).map (fun x => (k, x)))

/-- Plane of the unit at offset x of region k; none where PLANES is 0 or the plane would be N or higher (R332). -/
def Mach.wregPlane (m : Mach) (k x : Nat) : Option Nat :=
  let n := m.rd .FAULT_WREG_PLANES k
  if n = 0 then none
  else
    let ps := m.rd .FAULT_WREG_PSTRIDE k
    let b := if m.rd .FAULT_WREG_ARR k = 1 then x / 32 % n else if ps = 0 then n else x / ps
    if b < n then some b else none

/-- How an uncorrectable unit is served (R330, R333). -/
inductive UeServe where
  | mirror (a : Nat)
  | shed (plane : Nat)
  | poison (span : Bool)
  deriving DecidableEq, Repr

/-- The first row of R333 that applies to an uncorrectable unit; `planes` is the reader's plane count when it reads the unit as plane data, 0 otherwise. -/
def Mach.serveUe (m : Mach) (dram : Bool) (a planes : Nat) : UeServe :=
  match m.wregOf a with
  | none => .poison false
  | some (k, x) =>
    let mir := m.rd .FAULT_WREG_MIRROR k
    if mir != 0 && !m.readUe dram (mir + x / 32 * 32) 32 then .mirror (mir + x / 32 * 32)
    else match m.wregPlane k x with
      | some b =>
        if 3 ≤ m.rd .FAULT_WREG_PLANES k ∧ planes ≠ 0 ∧ b + 3 ≤ m.rd .FAULT_WREG_PLANES k ∧ b + 3 ≤ planes then .shed b else .poison true
      | none => .poison true

/-- The primary unit rewritten from its mirror, and the fault recorded (R333). -/
def Mach.mirrorFix (m : Mach) (p : Nat) (id : Option Nat) (a mir : Nat) : Mach :=
  let w := (m.write p false (a / 32 * 32) (m.read false mir 32)).1
  w.meetUe id p (a / 32 * 32) 1 (stackOf a) fkMirrorFix

/-- Addresses of the units of a range that read poisoned. -/
def Mach.ueUnits (m : Mach) (dram : Bool) (a n : Nat) : List Nat := ((pieceStarts 32 a n).filter (fun s => (m.byteAt dram s).2)).map (fun s => s / 32 * 32)

/-- Address of the first poisoned unit of a range (R344). -/
def Mach.ueAt (m : Mach) (dram : Bool) (a n : Nat) : Nat := (m.ueUnits dram a n).headD a

/-- Mirrors serve what they can of a range that a command, or the block itself, reads: the units are rewritten; answers whether one was, and the state. -/
def Mach.mirrorAll (m : Mach) (dram : Bool) (p : Nat) (id : Option Nat) (a n : Nat) : Bool × Mach :=
  (m.ueUnits dram a n).foldl (fun (r : Bool × Mach) s =>
    match r.2.serveUe dram s 0 with
    | .mirror mir => (true, r.2.mirrorFix p id s mir)
    | _ => r) (false, m)

/-- Fault kind of a poisoned unit at an address (R330, R333, R222). -/
def Mach.ueKind (m : Mach) (a : Nat) : Nat :=
  match m.canon a with
  | some c => if isStackC c && m.mapWrong (cGranule c) then fkWmapUe else if (m.wregOf a).isSome then fkSpanPoison else fkMemUe
  | none => fkMemUe

/-- Source class and instance of the array an address lies in (R9). -/
def Mach.ueSource (m : Mach) (a : Nat) : Nat × Nat :=
  match m.locOf a with
  | .core n _ => (0, n)
  | _ => (1, stackOf a)

/-- The record of a poisoned read at `a` (R330), with what stands in ADDR's place (R344). -/
def Mach.postUe (m : Mach) (p : Nat) (id : Option Nat) (a addr : Nat) : Mach := m.meetUe id p addr (m.ueSource a).1 (m.ueSource a).2 (m.ueKind a)

/-- A command writes bytes at a local address: ST_UE where part of them is discarded at an uncorrectable codeword, recorded (R331). -/
def Mach.writeFor (m : Mach) (p id a : Nat) (bs : Bytes) : Mach × Nat :=
  let w := m.write p true a bs
  if w.2 then (w.1.postUe p (some id) (a / 32 * 32) (a / 32 * 32), stUe) else (w.1, stOk)

/-- Every poisoned unit of a range has its record (R330). -/
def Mach.postUnits (m : Mach) (dram : Bool) (p : Nat) (id : Option Nat) (a n : Nat) : Mach :=
  (m.ueUnits dram a n).foldl (fun m u => m.postUe p id u u) m

/-! ## Isolation wrappers of units in reset (R400) -/

/-- A wrapper completes k transfers of a scope in reset; the record is under the tag of the command that met it (R85). -/
def Mach.isoAbort (m : Mach) (id : Option Nat) (p cls inst k : Nat) : Mach :=
  if k = 0 then m else (m.inc .RST_ISO_COUNT k).postFor id ⟨p, 0, 0, cls, inst, fkIsoAbort⟩

/-- The core in unit reset whose store an address lies in. -/
def Mach.coreInReset (m : Mach) (a : Nat) : Option Nat :=
  match m.locOf a with
  | .core n _ => if m.resets.units.contains (0, n) then some n else none
  | _ => none

/-- A range of local addresses meets the store of a core in unit reset. -/
def Mach.rangeInReset (m : Mach) (a n : Nat) : Option Nat :=
  (m.resets.units.filter (fun u => u.1 == 0 && decide (a < coreAddr (u.2 + 1) 0) && decide (coreAddr u.2 0 < a + n))).head?.map (·.2)

end Sys2Proof.Machine
end

