-- ==== Sys2Proof/Machine/Operands.lean ====
section
/-! DEFINITION. The operand forms of a command (R82 to R90): its 64 bytes, flags, parameter substitution, tick resolution and wait words. -/
namespace Sys2Proof

open Sys2Proof.Machine

/-! Flags (R83). -/
def Cmd.event (c : Cmd) : Bool := bit c.flags 0
def Cmd.haltFail (c : Cmd) : Bool := bit c.flags 1
def Cmd.trace (c : Cmd) : Bool := bit c.flags 2
def Cmd.ckpt (c : Cmd) : Bool := bit c.flags 3
def Cmd.sealRec (c : Cmd) : Bool := bit c.flags 4
def Cmd.evnum (c : Cmd) : Nat := bits c.flags 15 8

/-! Parameter selection (R86). -/
def Cmd.mask (c : Cmd) : Nat := bits c.psel 4 0
def Cmd.pbase (c : Cmd) : Nat := bits c.psel 10 5
def Cmd.addMode (c : Cmd) : Bool := bit c.psel 11
def Cmd.trel (c : Cmd) : Bool := bit c.psel 12

/-- A set MASK bit names a register above p63. -/
def Cmd.pbaseBad (c : Cmd) : Bool := (List.range 5).any (fun i => bit c.mask i && decide (63 < c.pbase + i))

/-- The five wait words of a command: P0 alone, but all five of a WAIT (R96). -/
def Cmd.waits (c : Cmd) : List Nat := if c.opcode = 7 then [c.p0, c.p1, c.p2, c.p3, c.p4] else [c.p0]

end Sys2Proof

namespace Sys2Proof.Machine

/-- The 64 bytes of a command (R82). -/
def cmdBytes (c : Cmd) : Bytes :=
  toBytes 1 c.opcode ++ toBytes 1 (c.engine % 16 + c.part % 16 * 16) ++ toBytes 2 c.flags ++ toBytes 4 c.tag ++ toBytes 6 c.issue ++
    toBytes 6 c.deadline ++ toBytes 4 c.psel ++ toBytes 8 c.p0 ++ toBytes 8 c.p1 ++ toBytes 8 c.p2 ++ toBytes 8 c.p3 ++ toBytes 8 c.p4

/-- The command that 64 bytes of a ring spell (R82). -/
def cmdOf (b : Bytes) : Cmd :=
  { opcode := field b 0 1, engine := field b 1 1 % 16, part := field b 1 1 / 16, flags := field b 2 2, tag := field b 4 4, issue := field b 8 6,
    deadline := field b 14 6, psel := field b 20 4, p0 := field b 24 8, p1 := field b 32 8, p2 := field b 40 8, p3 := field b 48 8, p4 := field b 56 8 }

/-- Word i of a command after substitution (R86). -/
def Mach.substWord (m : Mach) (p : Nat) (c : Cmd) (i w : Nat) : Nat :=
  if bit c.mask i then
    let r := m.rd .SEQR_PARAM_VALUE p (c.pbase + i)
    if c.addMode then
      if i = 0 then (w / 2 ^ 48) * 2 ^ 48 + (w + r) % 2 ^ 48 else (w + r) % 2 ^ 64
    else r
  else w

/-- The command with substitution and TREL resolved (R86, R87). -/
def Mach.resolve (m : Mach) (p q : Nat) (c : Cmd) : Cmd :=
  let tb := m.rd .SEQR_QTBASE_TICK p q
  let c := if c.pbaseBad then c else
    { c with p0 := m.substWord p c 0 c.p0, p1 := m.substWord p c 1 c.p1, p2 := m.substWord p c 2 c.p2, p3 := m.substWord p c 3 c.p3, p4 := m.substWord p c 4 c.p4 }
  if c.trel then
    { c with issue := (tb + c.issue) % 2 ^ 48, deadline := if c.deadline = 0 then 0 else (tb + c.deadline) % 2 ^ 48 }
  else c

/-! Wait words (R88 to R90). -/
def waitValue (w : Nat) : Nat := bits w 47 0
def waitId (w : Nat) : Nat := bits w 55 48
def waitKind (w : Nat) : Nat := bits w 57 56

/-- A wait word breaks R88 or R90: reserved bits, or a token wait on a queue above 19. -/
def waitBad (w : Nat) : Bool := bits w 63 58 != 0 || (waitKind w == 2 && decide (19 < waitId w))

/-- The condition of a wait word is met, against counter values at the start of the tick. -/
def Mach.waitMet (m : Mach) (p w : Nat) : Bool :=
  match waitKind w with
  | 0 => true
  | 1 => reached48 (m.evStart p (waitId w)) (waitValue w)
  | 2 => decide (19 < waitId w) || reached48 (m.tokStart p (waitId w)) (waitValue w)
  | _ => m.passed (waitValue w)

/-- Causes of an outside command whose event or token meets the wait (R41). -/
def Mach.waitCauses (m : Mach) (p w : Nat) : Option Nat :=
  (m.sq.outMarks.find? (fun k => k.part == p && k.num == waitId w && k.count == waitValue w &&
    ((k.token && waitKind w == 2) || (!k.token && waitKind w == 1)))).map (fun k => k.causes)

/-- ENGINE code of a queue (R81). -/
def engineOf (q : Nat) : Nat := if q = 0 then 0 else if q = 1 then 1 else if q < 4 then 2 else if q < 8 then 3 else 4

/-- Opcodes permitted on a queue (R91). -/
def opcodeOk (op q : Nat) : Bool :=
  match op with
  | 0x00 => true
  | 0x01 => engineOf q == 3
  | 0x02 => engineOf q == 4
  | 0x03 => engineOf q == 2
  | 0x05 => engineOf q == 1
  | 0x06 => engineOf q == 1
  | 0x07 => true
  | 0x08 => true
  | 0x09 => engineOf q == 0
  | 0x0A => engineOf q == 4
  | 0x0B => engineOf q == 2 || engineOf q == 3 || engineOf q == 4
  | 0x0C => engineOf q == 0
  | 0x0D => engineOf q == 0
  | 0x0E => true
  | 0x0F => true
  | _ => false

/-- Opcodes the sequencer executes itself (R81). -/
def isSeqOp (op : Nat) : Bool := [0x00, 0x07, 0x08, 0x0E, 0x0F].contains op

/-- A local-address parameter has no bit set above bit 47 (R84). -/
def localWord (w : Nat) : Bool := decide (w < 2 ^ 48)

end Sys2Proof.Machine
end

