-- ==== Sys2Proof/Machine/Tensors.lean ====
section
/-! DEFINITION. Tensor descriptors (file 07): their words, validation, handles, where elements and scales lie, tiles, and the reads and writes through them. -/
namespace Sys2Proof.Machine

/-- A dimension record (R179). -/
structure Dim where
  stride : Int
  tile : Nat
  size : Nat
  padsize : Nat
  deriving DecidableEq, Repr

/-- A descriptor, decoded against its allocation (R178). -/
structure Tensor where
  base : Nat
  alen : Nat
  alloc : Nat
  fmt : Nat
  rank : Nat
  wr : Bool
  pad : Nat
  block : Bool
  sdim : Nat
  padval : Nat
  offset : Nat
  pstride : Nat
  scaleoff : Nat
  dims : List Dim
  deriving DecidableEq, Repr

def dimOf (w : List Nat) (d : Nat) : Dim :=
  let a := nthD w (4 + 2 * d) 0
  let b := nthD w (5 + 2 * d) 0
  ⟨toSigned 40 (bits a 39 0), bits a 63 40, bits b 31 0, bits b 63 32⟩

/-- The sixteen words of a descriptor, read against partition p's allocation table. -/
def Mach.tensorOf (m : Mach) (p : Nat) (w : List Nat) : Tensor :=
  let w0 := nthD w 0 0
  { base := m.rd .SEC_ALLOC_BASE p (bits w0 7 0)
    alen := m.rd .SEC_ALLOC_LEN p (bits w0 7 0)
    alloc := bits w0 7 0
    fmt := bits w0 12 8
    rank := bits w0 15 13
    wr := bit w0 16
    pad := bits w0 18 17
    block := bit w0 19
    sdim := bits w0 22 20
    padval := bits w0 63 32
    offset := bits (nthD w 1 0) 47 0
    pstride := bits (nthD w 2 0) 39 0
    scaleoff := bits (nthD w 3 0) 47 0
    dims := (List.range (bits w0 15 13)).map (dimOf w) }

namespace Tensor

def planes (t : Tensor) : Nat := planesOf t.fmt
def planar (t : Tensor) : Bool := t.planes != 0
def scaled (t : Tensor) : Bool := scaleBlock t.fmt != 0

/-- The extent of a dimension (R179). -/
def ext (t : Tensor) (d : Dim) : Nat := if t.wr && t.pad != 0 then d.padsize else d.size
def exts (t : Tensor) : List Nat := t.dims.map t.ext
def sizes (t : Tensor) : List Nat := t.dims.map (·.size)

/-- The tile extent of a dimension (R185). -/
def tileExt (t : Tensor) (d : Dim) : Nat := if d.tile = 0 then t.ext d else d.tile
def tiles (t : Tensor) : List Nat := t.dims.map t.tileExt

end Tensor

def prod (l : List Nat) : Nat := l.foldl (· * ·) 1

/-- The indices of linear position k in a grid, dimension 0 fastest. -/
def indices : List Nat → Nat → List Nat
  | [], _ => []
  | e :: es, k => (k % e) :: indices es (k / e)

/-- The linear position of indices in a grid, dimension 0 fastest. -/
def linear : List Nat → List Nat → Nat
  | e :: es, i :: is => i + e * linear es is
  | _, _ => 0

/-- Every index is below its extent. -/
def below (is es : List Nat) : Bool := (is.zip es).all (fun x => decide (x.1 < x.2))

namespace Tensor

/-- Element index e = Σ i × STRIDE (R179). -/
def elemIndex (t : Tensor) (is : List Nat) : Int := (is.zip t.dims).foldl (fun s x => s + (x.1 : Int) * x.2.stride) 0

/-- Byte that holds the bit of plane b of element e (R181). -/
def planeByte (t : Tensor) (b e : Nat) : Nat :=
  if t.block then t.base + t.offset + e / 256 * t.planes * 32 + b * 32 + e % 256 / 8
  else t.base + t.offset + b * t.pstride + e / 8

/-- First byte of an element of a byte format (R180). -/
def elemByte (t : Tensor) (e : Int) : Nat := ((t.base + t.offset : Nat) + e * (elemBytes t.fmt : Int)).toNat

/-- Bytes that an element touches. -/
def elemTouch (t : Tensor) (is : List Nat) : List Nat :=
  let e := t.elemIndex is
  if t.planar then (List.range t.planes).map (fun b => t.planeByte b e.toNat)
  else (List.range (elemBytes t.fmt)).map (fun i => t.elemByte e + i)

/-- Extents of a grid with the one along SDIM divided into scale blocks (R182). -/
def scaleGrid (t : Tensor) (es : List Nat) : List Nat :=
  (List.range es.length).map (fun d => if d = t.sdim then ceilDiv (nthD es d 0) (scaleBlock t.fmt) else nthD es d 0)

/-- Indices of the scale block of an element. -/
def scaleIdx (t : Tensor) (is : List Nat) : List Nat :=
  (List.range is.length).map (fun d => if d = t.sdim then nthD is d 0 / scaleBlock t.fmt else nthD is d 0)

/-- Byte that holds the scale of a block. -/
def scaleByte (t : Tensor) (sis : List Nat) : Nat := t.base + t.scaleoff + linear (t.scaleGrid t.exts) sis

/-- Some valid element uses the block. -/
def blockValid (t : Tensor) (sis : List Nat) : Bool := below sis (t.scaleGrid t.sizes)

/-- The scale 1 in the format's scale encoding (R187). -/
def unitScale (t : Tensor) : Nat := if t.fmt ≤ 8 then 0x7F else 0x38

/-- The number of elements and of scale bytes. -/
def count (t : Tensor) : Nat := prod t.exts
def scaleCount (t : Tensor) : Nat := if t.scaled then prod (t.scaleGrid t.exts) else 0
def isEmpty (t : Tensor) : Bool := t.dims.any (fun d => d.size == 0)

/-- Least and greatest element index (R184). -/
def eMin (t : Tensor) : Int := t.dims.foldl (fun s d => if d.stride < 0 then s + ((t.ext d : Int) - 1) * d.stride else s) 0
def eMax (t : Tensor) : Int := t.dims.foldl (fun s d => if d.stride < 0 then s else s + ((t.ext d : Int) - 1) * d.stride) 0

/-- First byte and byte after the last of elements and planes, from the allocation's start. -/
def span (t : Tensor) : Int × Int :=
  let z : Int := elemBytes t.fmt
  let n : Int := t.planes
  if t.planar then
    if t.block then (t.offset, t.offset + (t.eMax / 256 + 1) * n * 32)
    else (t.offset, t.offset + (n - 1) * t.pstride + (t.eMax + 8) / 8)
  else (t.offset + t.eMin * z, t.offset + (t.eMax + 1) * z)

end Tensor

/-! ## Validation (R183, R184) -/

/-- Insertion of a dimension by ascending stride magnitude, ties by number. -/
def insertDim (x : Nat × Nat) : List (Nat × Nat) → List (Nat × Nat)
  | [] => [x]
  | y :: ys => if x.1 < y.1 then x :: y :: ys else y :: insertDim x ys

/-- Magnitudes and extents of the dimensions above extent 1, in ascending order of magnitude. -/
def Tensor.sorted (t : Tensor) : List (Nat × Nat) :=
  ((t.dims.filter (fun d => decide (1 < t.ext d))).map (fun d => (d.stride.natAbs, t.ext d))).foldl (fun l x => insertDim x l) []

/-- The sufficient test of injectivity (R183). -/
def injective : Nat → List (Nat × Nat) → Bool
  | _, [] => true
  | span, (s, e) :: rest => decide (span ≤ s) && injective (span + (e - 1) * s) rest

/-- Check 1 of R184. -/
def Mach.formatOk (m : Mach) (w : List Nat) (t : Tensor) : Bool :=
  bits (nthD w 0 0) 31 23 == 0 && bits (nthD w 1 0) 63 48 == 0 && bits (nthD w 2 0) 63 40 == 0 && bits (nthD w 3 0) 63 48 == 0 &&
  (List.range 6).all (fun d => decide (d < t.rank) || (nthD w (4 + 2 * d) 0 == 0 && nthD w (5 + 2 * d) 0 == 0)) &&
  decide (1 ≤ t.rank) && decide (t.rank ≤ 6) && fmtValid t.fmt && t.pad != 3 && (!t.block || t.planar) &&
  (t.pstride == 0 || (t.planar && !t.block)) && (if t.scaled then decide (t.sdim < t.rank) else t.sdim == 0 && t.scaleoff == 0) &&
  t.dims.all (fun d => decide (d.size ≤ d.padsize)) && (t.pad == 0 || t.wr) && (t.pad != 2 || m.inStacks t.base)

/-- Check 3. -/
def Tensor.strideOk (t : Tensor) : Bool :=
  !t.planar || ((match t.dims with | d :: _ => decide (t.ext d ≤ 1) || d.stride == 1 | [] => true) && t.dims.all (fun d => decide (0 ≤ d.stride)) &&
    (t.dims.drop 1).all (fun d => d.stride % 8 == 0))

/-- Check 4. -/
def Tensor.tileOk (t : Tensor) : Bool :=
  t.dims.all (fun d => decide (t.tileExt d ≤ t.ext d)) &&
  (!t.scaled || (match t.dims[t.sdim]? with | some d => t.tileExt d % scaleBlock t.fmt == 0 || t.tileExt d == t.ext d | none => false)) &&
  (!t.planar || (match t.dims with | d :: _ => t.tileExt d % 8 == 0 || t.tileExt d == t.ext d | [] => false))

/-- Check 5: the range checks of the pseudocode. -/
def Tensor.rangeOk (t : Tensor) : Bool :=
  if t.exts.any (· == 0) then decide (t.offset ≤ t.alen)
  else decide (0 ≤ t.span.1) && decide (t.span.2 ≤ (t.alen : Int)) && (!t.scaled || decide (t.scaleoff + t.scaleCount ≤ t.alen))

/-- Check 6: the aliasing checks of the pseudocode. -/
def Tensor.aliasOk (t : Tensor) : Bool :=
  !t.wr || t.exts.any (· == 0) ||
    (injective 1 t.sorted && (!t.planar || t.block || decide ((t.eMax + 8) / 8 ≤ (t.pstride : Int))) &&
      (!t.scaled || decide (((t.scaleoff + t.scaleCount : Nat) : Int) ≤ t.span.1) || decide (t.span.2 ≤ (t.scaleoff : Int))))

/-- The status of validating staged words for partition p: the first failing check of R184 decides. -/
def Mach.validate (m : Mach) (p : Nat) (w : List Nat) : Nat :=
  let t := m.tensorOf p w
  if !m.formatOk w t then stDescFormat
  else if t.alen = 0 || !m.flag .SEC_ALLOC_READ p t.alloc || (t.wr && !m.flag .SEC_ALLOC_WRITE p t.alloc) then stDescRights
  else if !t.strideOk then stDescStride
  else if !t.tileOk then stDescTile
  else if !t.rangeOk then stDescRange
  else if !t.aliasOk then stDescAlias
  else if (List.range 4096).all (fun i => (m.desc p i).st != 0) then stDescTable
  else stOk

/-! ## Handles (R175 to R177) -/

def handleOf (p i gen : Nat) : Nat := i + p * 2 ^ 12 + gen * 2 ^ 16

/-- The words of the live descriptor of partition p that a handle names. -/
def Mach.resolveHandle (m : Mach) (p h : Nat) : Option (List Nat) :=
  let d := m.desc p (bits h 11 0)
  if h != 0 && bits h 15 12 == p && d.st == 1 && d.gen == bits h 31 16 then some d.words else none

/-- SEC_ALLOC[p][a].REFS rises by one, or falls by one. -/
def Mach.refUp (m : Mach) (p a : Nat) : Mach := m.wr .SEC_ALLOC_REFS (m.rd .SEC_ALLOC_REFS p a + 1) p a
def Mach.refDown (m : Mach) (p a : Nat) : Mach := m.wr .SEC_ALLOC_REFS (m.rd .SEC_ALLOC_REFS p a - 1) p a

/-- The staged words of SEC_DNEW. -/
def Mach.staged (m : Mach) (p : Nat) : List Nat := (List.range 16).map (fun k => m.rd .SEC_DNEW_WORD p k)

/-- SEC_DCTL.CREATE: the staged words go to validation; ignored while one is in progress (R176). -/
def descCreate (p : Nat) (m : Mach) : Mach :=
  if m.flag .SEC_DRES_BUSY p then m.badAcc
  else { m.wr .SEC_DRES_BUSY 1 p with creating := nset (fun _ => []) m.creating p (m.staged p) }

/-- The end of validation: the result and, on success, the lowest free slot filled (R176, R184). -/
def descValidated (p : Nat) (m : Mach) : Mach :=
  if !m.flag .SEC_DRES_BUSY p then m
  else
    let w := nget (fun _ => []) m.creating p
    let st := m.validate p w
    let m := { (m.wr .SEC_DRES_BUSY 0 p).wr .SEC_DRES_STATUS st p with creating := nset (fun _ => []) m.creating p [] }
    if st != stOk then m.wr .SEC_DRES_HANDLE 0 p
    else match (List.range 4096).find? (fun i => (m.desc p i).st == 0) with
      | some i =>
        let d := m.desc p i
        let m := (m.setDesc p i { d with st := 1, words := w, waitFor := [] }).refUp p (bits (nthD w 0 0) 7 0)
        (m.wr .SEC_DSTAT_LIVE (m.rd .SEC_DSTAT_LIVE p + 1) p).wr .SEC_DRES_HANDLE (handleOf p i d.gen) p
      | none => m.wr .SEC_DRES_HANDLE 0 p

/-- A live slot starts draining: it waits for the commands of its partition issued so far (R177). -/
def Mach.drainDesc (m : Mach) (p i : Nat) : Mach :=
  let d := m.desc p i
  let m := m.setDesc p i { d with st := 2, waitFor := (m.sq.issued.filter (fun c => c.part == p)).map (·.id) }
  (m.wr .SEC_DSTAT_LIVE (m.rd .SEC_DSTAT_LIVE p - 1) p).wr .SEC_DSTAT_DRAINING (m.rd .SEC_DSTAT_DRAINING p + 1) p

/-- SEC_DCTL.DESTROY of a handle (R177). -/
def descDestroy (p target : Nat) (m : Mach) : Mach :=
  let m := m.wr .SEC_DCTL_TARGET target p
  match m.resolveHandle p target with
  | none => m.wr .SEC_DRES_STATUS stDescHandle p
  | some _ => (m.drainDesc p (bits target 11 0)).wr .SEC_DRES_STATUS stOk p

/-- A drain has nothing left to wait for. -/
def Mach.drained (m : Mach) (p i : Nat) : Bool :=
  let d := m.desc p i
  d.st == 2 && d.waitFor.all (fun k => (m.issuedOf k).isNone)

/-- The end of a drain: the generation advances and the slot and reference are free (R177). -/
def descDrainDone (p i : Nat) (m : Mach) : Mach :=
  if m.drained p i then
    let d := m.desc p i
    let m := (m.setDesc p i { st := 0, gen := if d.gen = 65535 then 1 else d.gen + 1, words := [], waitFor := [] }).refDown p (bits (nthD d.words 0 0) 7 0)
    m.wr .SEC_DSTAT_DRAINING (m.rd .SEC_DSTAT_DRAINING p - 1) p
  else m

/-! ## Tiles (R185 to R187) -/

namespace Tensor

/-- Tiles per dimension, and in all. -/
def grid (t : Tensor) : List Nat := t.dims.map (fun d => ceilDiv d.size (t.tileExt d))
def tileCount (t : Tensor) : Nat := if t.isEmpty then 0 else prod t.grid

/-- Indices of the first element of a tile. -/
def tileOrigin (t : Tensor) (k : Nat) : List Nat := ((indices t.grid k).zip t.tiles).map (fun x => x.1 * x.2)

def addIdx (a b : List Nat) : List Nat := (a.zip b).map (fun x => x.1 + x.2)

/-- Tensor indices of the elements of a tile, in tile-local order. -/
def tileElems (t : Tensor) (k : Nat) : List (List Nat) := (List.range (prod t.tiles)).map (fun i => addIdx (t.tileOrigin k) (indices t.tiles i))

/-- Block indices of the scales of a tile, in tile-local order. -/
def tileScales (t : Tensor) (k : Nat) : List (List Nat) :=
  if t.scaled then
    let g := t.scaleGrid t.tiles
    (List.range (prod g)).map (fun i => addIdx (t.scaleIdx (t.tileOrigin k)) (indices g i))
  else []

/-- Bytes of one plane in an entry: ⌈elements / 8⌉ rounded up to 32. -/
def planeLen (t : Tensor) : Nat := ceilDiv (ceilDiv (prod t.tiles) 8) 32 * 32

/-- Bytes of elements in an entry, and of the whole tile before padding to 256. -/
def elemsLen (t : Tensor) : Nat := if t.planar then t.planes * t.planeLen else prod t.tiles * elemBytes t.fmt
def tileLen (t : Tensor) : Nat := ceilDiv (t.elemsLen + (if t.scaled then prod (t.scaleGrid t.tiles) else 0)) 256 * 256

/-- Bits of an element code. -/
def codeBits (t : Tensor) : Nat := if t.planar then t.planes else 8 * elemBytes t.fmt

end Tensor

/-- One plane of a list of codes, packed (R153) and filled to n bytes. -/
def packPlane (b n : Nat) (codes : List Nat) : Bytes :=
  (List.range n).map (fun i => BitVec.ofNat 8 ((List.range 8).foldl (fun s j => s + b2n (bit (nthD codes (8 * i + j) 0) b) * 2 ^ j) 0))

/-- The element and plane bytes of an entry, from the codes of its elements. -/
def Tensor.packElems (t : Tensor) (codes : List Nat) : Bytes :=
  if t.planar then ((List.range t.planes).map (fun b => packPlane b t.planeLen codes)).flatten
  else (codes.map (toBytes (elemBytes t.fmt))).flatten

/-- Code of element i of an entry. -/
def Tensor.codeAt (t : Tensor) (entry : Bytes) (i : Nat) : Nat :=
  if t.planar then
    (List.range t.planes).foldl (fun s b => s + b2n (bit (nthD entry (b * t.planeLen + i / 8) 0).toNat (i % 8)) * 2 ^ b) 0
  else field entry (i * elemBytes t.fmt) (elemBytes t.fmt)

/-! ## Reads through a descriptor -/

/-- An element's code as stored. -/
def Mach.elemCode (m : Mach) (t : Tensor) (is : List Nat) : Nat :=
  if t.planar then
    let e := (t.elemIndex is).toNat
    (List.range t.planes).foldl (fun s b => s + b2n (bit (m.byteAt false (t.planeByte b e)).1.toNat (e % 8)) * 2 ^ b) 0
  else m.readNat false (t.elemByte (t.elemIndex is)) (elemBytes t.fmt)

/-- What a core load makes of an element: its code, whether it is poisoned, whether it was served shed (R333, R334). -/
structure Loaded where
  code : Nat
  poison : Bool
  shed : Bool
  deriving DecidableEq, Repr

/-- A core load's read of one element. -/
def Mach.loadElem (m : Mach) (t : Tensor) (is : List Nat) : Loaded :=
  let code := m.elemCode t is
  let bad := (t.elemTouch is).filter (fun a => (m.byteAt false a).2)
  if bad.isEmpty then ⟨code, false, false⟩
  else
    let n := if 0x11 ≤ t.fmt then t.planes else 0
    let serves := bad.map (fun a => m.serveUe false (a / 32 * 32) n)
    if serves.any (fun s => match s with | .shed _ => false | _ => true) then ⟨code, true, false⟩
    else
      let top := serves.foldl (fun h s => match s with | .shed b => max h b | _ => h) 0
      ⟨code / 2 ^ (top + 1) * 2 ^ (top + 1) + (2 ^ top - 1), false, true⟩

/-- First bytes of the distinct pieces of k bytes that a list of byte addresses touches. -/
def unitsOf (k : Nat) (as : List Nat) : List Nat := (as.map (fun a => a / k * k)).eraseDups

/-- Mirrors serve what they can of the units that a list of byte addresses touches (R333); answers whether one did. -/
def Mach.mirrorUnits (m : Mach) (p : Nat) (id : Option Nat) (as : List Nat) : Bool × Mach :=
  (unitsOf 32 (as.filter (fun a => (m.byteAt false a).2))).foldl (fun (r : Bool × Mach) u =>
    let s := r.2.mirrorAll false p id u 32
    (r.1 || s.1, s.2)) (false, m)

/-- What reading the bytes at a list of addresses leaves in counters, log and cache. -/
def Mach.readUnits (m : Mach) (p hint : Nat) (as : List Nat) : Mach := (unitsOf 32 as).foldl (fun m a => m.afterRead p hint a 32) m

/-- A tile as its entry holds it: bytes, poison, shed; elements beyond SIZE read as PADVAL (R186, R187). -/
structure Tile where
  bytes : Bytes
  poison : Bool
  shed : Bool
  deriving DecidableEq, Repr

/-- The byte addresses that a load of tile k reads. -/
def Tensor.tileTouch (t : Tensor) (k : Nat) : List Nat :=
  (((t.tileElems k).filter (fun is => below is t.sizes)).map t.elemTouch).flatten ++ ((t.tileScales k).filter t.blockValid).map t.scaleByte

/-- The entry that a load of tile k pushes. -/
def Mach.loadTile (m : Mach) (t : Tensor) (k : Nat) : Tile :=
  let els := (t.tileElems k).map (fun is => if below is t.sizes then m.loadElem t is else ⟨t.padval % 2 ^ t.codeBits, false, false⟩)
  let scs := (t.tileScales k).map (fun s => if t.blockValid s then m.byteAt false (t.scaleByte s) else (BitVec.ofNat 8 t.unitScale, false))
  ⟨slice (t.packElems (els.map (·.code)) ++ scs.map (·.1)) 0 t.tileLen, els.any (·.poison) || scs.any (·.2), els.any (·.shed)⟩

/-! ## Writes through a descriptor (R188 to R190) -/

/-- A write to bits of one byte; `pad` when only fill-if-unwritten decides it. -/
structure BitWrite where
  addr : Nat
  mask : Nat
  val : Nat
  pad : Bool
  deriving DecidableEq, Repr

/-- The writes of one element's code. -/
def Tensor.elemWrites (t : Tensor) (is : List Nat) (code : Nat) (pad : Bool) : List BitWrite :=
  let e := t.elemIndex is
  if t.planar then
    (List.range t.planes).map (fun b => ⟨t.planeByte b e.toNat, 2 ^ (e.toNat % 8), b2n (bit code b) * 2 ^ (e.toNat % 8), pad⟩)
  else (List.range (elemBytes t.fmt)).map (fun i => ⟨t.elemByte e + i, 255, code / 256 ^ i % 256, pad⟩)

/-- The write of one scale. -/
def Tensor.scaleWrite (t : Tensor) (s : List Nat) (v : Nat) (pad : Bool) : BitWrite := ⟨t.scaleByte s, 255, v, pad⟩

/-- Granule of an address in the stacks. -/
def Mach.granuleAt (m : Mach) (a : Nat) : Option Nat :=
  match m.canon a with
  | some c => if isStackC c then some (cGranule c) else none
  | none => none

/-- No writer has stored data in the granule: its bit is clear and the cache holds no dirty byte of it (R189). -/
def Mach.neverWritten (m : Mach) (g : Nat) : Bool :=
  !m.granuleSet g && !m.cache.any (fun e => e.2.dirty != 0 && isStackC (e.1 * 32) && cGranule (e.1 * 32) == g)

/-- The writes that one operation makes: under fill-if-unwritten, pads only in granules never written (R189). -/
def Mach.padFilter (m : Mach) (t : Tensor) (ws : List BitWrite) : List BitWrite :=
  if t.pad = 2 then ws.filter (fun w => !w.pad || (match m.granuleAt w.addr with | some g => m.neverWritten g | none => false)) else ws

/-- Writes gathered byte by byte, the later standing. -/
def gather (ws : List BitWrite) : List (Nat × Nat × Nat) :=
  ws.foldl (fun l w =>
    let old := nget (fun _ => (0, 0)) l w.addr
    put natBefore w.addr (old.1 ||| w.mask, (old.2 &&& (255 ^^^ w.mask)) ||| w.val) l) []

/-- Runs of neighbouring bytes. -/
def runs : List (Nat × Byte) → List (Nat × Bytes)
  | [] => []
  | (a, b) :: rest =>
    match runs rest with
    | (a', bs) :: more => if a' = a + 1 then (a, b :: bs) :: more else (a, [b]) :: (a', bs) :: more
    | [] => [(a, [b])]

/-- The bits of a byte that a write does not cover: merged in the stacks and core stores; in the host window and the far tier zero, but for bits that the same operation has
written before (R190). -/
def Mach.mergeByte (m : Mach) (earlier : List (Nat × Byte)) (a mask val : Nat) : Byte :=
  if mask = 255 then BitVec.ofNat 8 val
  else if 3 ≤ m.region a then BitVec.ofNat 8 (((nget (fun _ => 0) earlier a).toNat &&& (255 ^^^ mask)) ||| val)
  else BitVec.ofNat 8 (((m.byteAt false a).1.toNat &&& (255 ^^^ mask)) ||| val)

/-- The codeword at an address is uncorrectable as the shared cache, or the core store, holds it (R331). -/
def Mach.codewordUe (m : Mach) (a : Nat) : Bool :=
  match m.canon a with
  | some c => if isStackC c then m.halfUe c (c % 32 / 16) else decide (2 ≤ m.wrongAt c)
  | none => false

/-- A partial byte of a poisoned codeword cannot be merged (R331). -/
def Mach.mergeLost (m : Mach) (a mask : Nat) : Bool := mask != 255 && decide (m.region a < 3) && m.codewordUe a

/-- The byte runs that the writes of one operation come to, those of poisoned codewords left out; whether some were; and the partly written bytes of the host window and the far
tier, for the operation's later writes (R190, R331). -/
def Mach.byteRuns (m : Mach) (earlier : List (Nat × Byte)) (t : Tensor) (ws : List BitWrite) : List (Nat × Bytes) × Bool × List (Nat × Byte) :=
  let g := gather (m.padFilter t ws)
  let bs := (g.filter (fun x => !m.mergeLost x.1 x.2.1)).map (fun x => (x.1, m.mergeByte earlier x.1 x.2.1 x.2.2))
  let split := g.filter (fun x => x.2.1 != 255 && decide (3 ≤ m.region x.1))
  (runs bs, g.any (fun x => m.mergeLost x.1 x.2.1), split.foldl (fun l x => nset (fun _ => 0) l x.1 (m.mergeByte earlier x.1 x.2.1 x.2.2)) earlier)

/-- The writes of one operation. Answers whether a part was discarded (R331). -/
def Mach.applyWrites (m : Mach) (p : Nat) (keep : Bool) (t : Tensor) (ws : List BitWrite) : Mach × Bool :=
  let r := m.byteRuns [] t ws
  r.1.foldl (fun (r : Mach × Bool) x =>
    let w := r.1.write p keep x.1 x.2
    (w.1, r.2 || w.2)) (m, r.2.1)

/-- Address of the unit at which one of the writes of an operation is discarded (R331, R344). -/
def Mach.lostUnit (m : Mach) (ws : List BitWrite) : Nat :=
  match ws.find? (fun x => m.codewordUe x.addr), ws with
  | some x, _ => x.addr / 32 * 32
  | none, x :: _ => x.addr / 32 * 32
  | none, [] => 0

/-- The writes of an entry stored to tile k: valid elements, pads within the tile, and scales (R188). -/
def Tensor.storeWrites (t : Tensor) (k : Nat) (entry : Bytes) : List BitWrite :=
  let es := t.tileElems k
  let ew := (List.range es.length).map (fun i =>
    let is := nthD es i []
    if below is t.sizes then t.elemWrites is (t.codeAt entry i) false
    else if t.pad != 0 && below is t.exts then t.elemWrites is (t.padval % 2 ^ t.codeBits) true
    else [])
  let ss := t.tileScales k
  let sw := (List.range ss.length).map (fun i =>
    let s := nthD ss i []
    if t.blockValid s then [t.scaleWrite s (nthD entry (t.elemsLen + i) 0).toNat false]
    else if t.pad != 0 && below s (t.scaleGrid t.exts) then [t.scaleWrite s t.unitScale true]
    else [])
  ew.flatten ++ sw.flatten

end Sys2Proof.Machine
end

