-- ==== Sys2Proof/Machine/Copies.lean ====
section
/-! DEFINITION. COPY (R93, R191 to R193): its checks, the groups it writes, FILL, and the atomics of R76 to R79. -/
namespace Sys2Proof

open Sys2Proof.Machine

/-! Fields of COPY's parameters (R93). -/
def Cmd.transpose (c : Cmd) : Bool := bit c.p3 0
def Cmd.fill (c : Cmd) : Bool := bit c.p3 1
def Cmd.rdHint (c : Cmd) : Nat := bits c.p3 3 2
def Cmd.wrHint (c : Cmd) : Nat := bits c.p3 5 4
def Cmd.amo (c : Cmd) : Bool := bit c.p3 6
def Cmd.amoOp (c : Cmd) : Nat := bits c.p3 9 7
def Cmd.amoWide (c : Cmd) : Bool := bit c.p3 10
def Cmd.copyAddr (c : Cmd) : Nat := bits c.p3 63 16

end Sys2Proof

namespace Sys2Proof.Machine

/-- An address in a region the rule allows, or in no region at all: that one is check 5's (R84; log entry 11). -/
def Mach.placeOk (m : Mach) (a : Nat) : Bool := m.inStacks a || m.region a == 2 || m.region a == 9

/-- An address in the stacks or an enabled core's store. -/
def Mach.inBlock (m : Mach) (a : Nat) : Bool := m.inStacks a || m.region a == 2

/-! ## Atomics (R76) -/

/-- The new value of an atomic's operand: add, signed min and max, unsigned min and max, compare-and-swap. -/
def amoResult (op : Nat) (wide : Bool) (old operand compare : Nat) : Nat :=
  let n := if wide then 64 else 32
  let a := old % 2 ^ n
  let b := operand % 2 ^ n
  match op with
  | 0 => (a + b) % 2 ^ n
  | 1 => if toSigned n b < toSigned n a then b else a
  | 2 => if toSigned n a < toSigned n b then b else a
  | 3 => min a b
  | 4 => max a b
  | _ => if a = compare % 2 ^ n then b else a

/-- An atomic's target is in the stacks and naturally aligned (R76). -/
def Mach.amoTarget (m : Mach) (a : Nat) (wide : Bool) : Bool := m.inStacks a && a % (if wide then 8 else 4) == 0

/-- An atomic performed at the shared cache: the value it replaced, and the state. -/
def Mach.amoDo (m : Mach) (p a op : Nat) (wide : Bool) (operand compare : Nat) : Nat × Mach :=
  let n := if wide then 8 else 4
  let old := m.readNat false a n
  let m := m.afterRead p 0 a n
  (old, (m.write p true a (toBytes n (amoResult op wide old operand compare))).1)

/-! ## Checks -/

/-- Check 4 of R84 for COPY (R93). -/
def Mach.copyFieldsOk (m : Mach) (c : Cmd) : Bool :=
  bits c.p3 15 11 == 0 &&
  (if c.amo then
     bits c.p3 5 0 == 0 && !c.sealRec && decide (c.amoOp ≤ 5) && c.copyAddr % 8 == 0 && m.placeOk c.copyAddr
   else
     c.amoOp == 0 && !c.amoWide && c.rdHint != 3 && decide (c.wrHint < 2) && decide (c.p1 < 2 ^ 32) && decide (c.p2 < 2 ^ 32) &&
     (if c.sealRec then c.copyAddr % 32 == 0 && m.placeOk c.copyAddr else c.copyAddr == 0))

/-- A global address: reserved bits zero, and local ones decode (R51, R52). -/
def Mach.globalOk (m : Mach) (a : Nat) : Bool := a / 2 ^ 58 == 0 && (a / 2 ^ 48 != m.rd .GLOBAL_BLOCK_NUM || m.region (a % 2 ^ 48) != 9)

/-- Check 5 for COPY. -/
def Mach.copyAddrOk (m : Mach) (c : Cmd) : Bool :=
  if c.amo then m.globalOk c.p1 && m.region c.copyAddr != 9
  else !c.sealRec || m.region c.copyAddr != 9

/-- Check 6 for COPY: a read operand in the host window or the far tier (R34, R194). -/
def Mach.copyExternal (m : Mach) (p : Nat) (c : Cmd) : Bool :=
  if c.amo then c.p1 / 2 ^ 48 == m.rd .GLOBAL_BLOCK_NUM && decide (3 ≤ m.region (c.p1 % 2 ^ 48)) && m.region (c.p1 % 2 ^ 48) != 9
  else !c.fill && (match m.resolveHandle p c.p1 with
    | some w => (let t := m.tensorOf p w; m.region t.base == 3 || m.region t.base == 4)
    | none => false)

/-- Source and destination correspond (R192). -/
def corresponds (transpose : Bool) (s d : Tensor) : Bool :=
  let swap (l : List Nat) : List Nat := match l with | a :: b :: r => b :: a :: r | _ => l
  s.fmt == d.fmt && s.rank == d.rank && (!transpose || decide (2 ≤ d.rank)) &&
  s.sizes == (if transpose then swap d.sizes else d.sizes) &&
  (!d.scaled || d.sdim == (if transpose then (if s.sdim = 0 then 1 else if s.sdim = 1 then 0 else s.sdim) else s.sdim))

/-- The two byte ranges of a tensor: elements with planes, and scales. -/
def Tensor.byteRanges (t : Tensor) : List (Nat × Nat) :=
  if t.exts.any (· == 0) then []
  else
    let lo := ((t.base : Int) + t.span.1).toNat
    let hi := ((t.base : Int) + t.span.2).toNat
    if t.scaled then [(lo, hi - lo), (t.base + t.scaleoff, t.scaleCount)] else [(lo, hi - lo)]

/-- Two ranges of local addresses name some common byte, in whatever views. -/
def Mach.rangesMeet (m : Mach) (x y : Nat × Nat) : Bool :=
  if m.region x.1 == m.region y.1 then decide (x.1 < y.1 + y.2) && decide (y.1 < x.1 + x.2) && x.2 != 0 && y.2 != 0
  else m.inStacks x.1 && m.inStacks y.1 &&
    (List.range x.2).any (fun i => match m.canon (x.1 + i) with
      | some c => (let a := if bit y.1 46 then c else stripedOf c; decide (y.1 ≤ a) && decide (a < y.1 + y.2))
      | none => false)

def Mach.tensorsMeet (m : Mach) (s d : Tensor) : Bool := s.byteRanges.any (fun x => d.byteRanges.any (fun y => m.rangesMeet x y))

/-- The checks of R191 (check 7 of R84 for COPY), and those of an atomic. -/
def Mach.copyCheck (m : Mach) (p : Nat) (c : Cmd) : Option Nat :=
  if c.amo then
    if c.p1 / 2 ^ 48 = m.rd .GLOBAL_BLOCK_NUM then (if m.amoTarget (c.p1 % 2 ^ 48) c.amoWide then none else some stAtomicTarget)
    else if c.p1 % (if c.amoWide then 8 else 4) ≠ 0 then some stAtomicTarget
    else if m.flag .RST_MODE_TEST then none else some stNoRemoteAtomic
  else match m.resolveHandle p c.p2 with
    | none => some stDescHandle
    | some dw =>
      let d := m.tensorOf p dw
      if c.fill then (if !d.wr then some stDescRights else if m.region d.base == 9 then some stAddrInvalid else none)
      else match m.resolveHandle p c.p1 with
        | none => some stDescHandle
        | some sw =>
          let s := m.tensorOf p sw
          if !d.wr then some stDescRights
          else if !corresponds c.transpose s d then some stDescMismatch
          else if m.tensorsMeet s d then some stDescAlias
          else if m.region s.base == 9 || m.region d.base == 9 then some stAddrInvalid
          else none

/-! ## The copy itself (R193) -/

/-- A COPY as it runs: tensors (no source under FILL), parameters. -/
structure CopyJob where
  src : Option Tensor
  dst : Tensor
  transpose : Bool
  fill : Nat
  rdHint : Nat
  keep : Bool
  p : Nat
  /-- The command. -/
  id : Nat
  chan : Nat
  deriving DecidableEq, Repr

/-- Elements of a group (R193). -/
def Tensor.groupLen (t : Tensor) : Nat := if t.planar then 256 else 32 / elemBytes t.fmt

def swap01 : List Nat → List Nat
  | a :: b :: r => b :: a :: r
  | l => l

/-- Source indices of a destination element. -/
def CopyJob.from (j : CopyJob) (is : List Nat) : List Nat := if j.transpose then swap01 is else is

/-- Bytes that the source elements and scales of a group occupy. -/
def CopyJob.touch (j : CopyJob) (els : List (List Nat)) : List Nat :=
  match j.src with
  | none => []
  | some s =>
    let vs := (els.filter (fun is => below is j.dst.sizes)).map j.from
    (vs.map s.elemTouch).flatten ++ (if s.scaled then (vs.map (fun is => s.scaleByte (s.scaleIdx is))).eraseDups else [])

/-- The scale of a destination block. -/
def CopyJob.scaleOf (m : Mach) (j : CopyJob) (sis : List Nat) : Nat :=
  match j.src with
  | some s => if j.dst.blockValid sis then (m.byteAt false (s.scaleByte (j.from sis))).1.toNat else j.dst.unitScale
  | none => j.dst.unitScale

/-- The writes of one group: its scales, then its elements, pads included (R188, R193). -/
def CopyJob.writes (m : Mach) (j : CopyJob) (els : List (List Nat)) : List BitWrite :=
  let d := j.dst
  let scales := if d.scaled then
      ((els.map d.scaleIdx).eraseDups).map (fun s => d.scaleWrite s (j.scaleOf m s) (!d.blockValid s))
    else []
  scales ++ (els.map (fun is =>
    if below is d.sizes then
      d.elemWrites is (match j.src with | some s => m.elemCode s (j.from is) | none => j.fill % 2 ^ d.codeBits) false
    else d.elemWrites is (d.padval % 2 ^ d.codeBits) true)).flatten

/-- How a run of groups ended. -/
structure CopyEnd where
  groups : Nat
  ue : Bool
  deriving DecidableEq, Repr

/-- A far-tier access that joins the port (R322). -/
def Mach.farJoin (m : Mach) (f : FarOp) : Mach := { m with farOps := m.farOps ++ [{ f with id := m.nextItem }], nextItem := m.nextItem + 1 }

/-- Group k of a COPY writes bytes inside one far-tier slot: they wait in the command's access to that slot (R34, R322). -/
def Mach.farStage (m : Mach) (p id k s off : Nat) (bs : Bytes) : Mach :=
  if m.farOps.any (fun f => f.cmdId == id && f.kind == .copyWrite && f.slot == s) then
    { m with farOps := m.farOps.map (fun f =>
        if f.cmdId == id && f.kind == .copyWrite && f.slot == s then { f with buf := putBytes f.buf off bs, mask := f.mask ||| byteMask off bs.length } else f) }
  else m.farJoin ⟨0, id, k, p, .copyWrite, s, 0, 0, putBytes (List.replicate 8192 0) off bs, byteMask off bs.length⟩

/-- Group k of a COPY writes bytes at a local address. -/
def CopyJob.put (j : CopyJob) (k a : Nat) (bs : Bytes) (m : Mach) : Mach × Bool :=
  if m.region a = 3 then ((pieces 8192 (a - farBase) bs).foldl (fun m pc => m.farStage j.p j.id k (pc.1 / 8192) (pc.1 % 8192) pc.2) m, false)
  else m.write j.p j.keep a bs

/-- Groups k, k + 1, … of a COPY, until one meets an uncorrectable unit: the channel halts there (R104, R330, R331). `split` holds the bytes of the host window and the far tier
that earlier groups wrote in part (R190). -/
def copyGroups (j : CopyJob) : Nat → Nat → List (Nat × Byte) → Mach → Mach × CopyEnd
  | 0, k, _, m => (m, ⟨k, false⟩)
  | n + 1, k, split, m =>
    let g := j.dst.groupLen
    let els := (List.range (min g (j.dst.count - k * g))).map (fun i => indices j.dst.exts (k * g + i))
    let touch := j.touch els
    let fixed := m.mirrorUnits j.p (some j.id) touch
    let m := fixed.2
    match touch.find? (fun a => (m.byteAt false a).2) with
    | some a =>
      let m := m.readUnits j.p 1 touch
      let u := a / 32 * 32
      (if m.ueKind u = fkMemUe then m.meetUe (some j.id) j.p u 11 (j.p * 2 + j.chan) fkCopyUe else m.postUe j.p (some j.id) u u, ⟨k, true⟩)
    | none =>
      let ws := j.writes m els
      let m := m.readUnits j.p j.rdHint touch
      let r := m.byteRuns split j.dst ws
      let w := r.1.foldl (fun (r : Mach × Bool) x => let w := j.put k x.1 x.2 r.1; (w.1, r.2 || w.2)) (m, r.2.1)
      if w.2 then (w.1.postUe j.p (some j.id) (m.lostUnit ws) (m.lostUnit ws), ⟨k, true⟩)
      else copyGroups j n (k + 1) r.2.2 w.1

/-- The COPY of an issued command, from the descriptors resolved at its issue (R177, R191). -/
def Mach.copyJob (m : Mach) (c : Issued) : Option CopyJob :=
  match c.descs with
  | [] => none
  | dw :: sw =>
    some { src := sw.head?.map (m.tensorOf c.part)
           dst := m.tensorOf c.part dw
           transpose := c.cmd.transpose
           fill := c.cmd.p4
           rdHint := c.cmd.rdHint
           keep := c.cmd.wrHint == 0
           p := c.part
           id := c.id
           chan := c.queue - 2 }

/-- All groups of a job run, and the command's status and progress; one that writes far-tier slots ends with the last of them (R34). -/
def Mach.copyRun (m : Mach) (c : Issued) (j : CopyJob) : Mach :=
  if j.dst.isEmpty then m.setIssued { c with result := some stEmpty, progress := 0 }
  else
    let r := copyGroups j (ceilDiv j.dst.count j.dst.groupLen) 0 [] m
    let m := r.1
    let touched := j.dst.byteRanges ++ (match j.src with | some s => s.byteRanges | none => [])
    let m := m.throttleTouch c.id (touched.map (fun x => m.stacksOf x.1 x.2)).flatten
    match m.issuedOf c.id with
    | some c' =>
      let st := if r.2.ue then stUe else stOk
      let left := (m.farOps.filter (fun f => f.cmdId == c.id)).length
      m.setIssued { c' with result := if left = 0 then some st else none, progress := r.2.groups, left := left, extra := [st] }
    | none => m

/-- Far-tier slots that a tensor's bytes lie in. -/
def Mach.farSlots (m : Mach) (t : Tensor) : List Nat :=
  if m.region t.base = 3 then
    ((t.byteRanges.map (fun r => (List.range (ceilDiv (r.2 + (r.1 - farBase) % 8192) 8192)).map (fun i => (r.1 - farBase) / 8192 + i))).flatten).eraseDups
  else []

/-- A new far-tier access is sent (R322). -/
def Mach.farSend (m : Mach) (c : Issued) (item : Nat) (kind : FarKind) (slot page entry : Nat) : Mach :=
  m.farJoin ⟨0, c.id, item, c.part, kind, slot, page, entry, [], 0⟩

/-- A tensor of a COPY lies in the store of a core that serves no logical core (R58, R194). -/
def CopyJob.absent (m : Mach) (j : CopyJob) : Bool := m.region j.dst.base == 9 || j.src.any (fun s => m.region s.base == 9)

/-- A COPY starts. One that reads the far tier first sends an access per slot, and runs when all have completed. -/
def Mach.copyStart (m : Mach) (c : Issued) : Mach :=
  match m.copyJob c with
  | none => m.setIssued { c with result := some stDescHandle }
  | some j =>
    let rd := match j.src with | some s => m.farSlots s | none => []
    if j.absent m then m.setIssued { c with result := some stAddrInvalid }
    else if !(m.farSlots j.dst).isEmpty && (m.key 2 c.part).isEmpty then m.setIssued { c with result := some stKeyAbsent }
    else if rd.isEmpty then m.copyRun c j
    else (rd.foldl (fun m s => m.farSend c 0 .copyRead s 0 0) m).setIssued { c with left := rd.length }

/-- A COPY with AMO on the block's own memory: the atomic, then RESULT (R93). -/
def Mach.copyAmoLocal (m : Mach) (c : Issued) : Mach :=
  let a := c.cmd.p1 % 2 ^ 48
  let n := if c.cmd.amoWide then 8 else 4
  let m := (m.mirrorAll false c.part (some c.id) a n).2
  if m.readUe false a n then
    let u := a / 32 * 32
    let m := m.noteRead false a n
    let m := if m.ueKind u = fkMemUe then m.meetUe (some c.id) c.part u 11 (c.part * 2 + (c.queue - 2)) fkCopyUe else m.postUe c.part (some c.id) u u
    match m.issuedOf c.id with
    | some c' => m.setIssued { c' with result := some stUe }
    | none => m
  else
    let r := m.amoDo c.part a c.cmd.amoOp c.cmd.amoWide c.cmd.p2 c.cmd.p4
    let w := (r.2.throttleTouch c.id (r.2.stacksOf a n ++ r.2.stacksOf c.cmd.copyAddr 8)).writeFor c.part c.id c.cmd.copyAddr (toBytes 8 r.1)
    let m := w.1
    match m.issuedOf c.id with
    | some c' => m.setIssued { c' with result := some w.2, progress := 1 }
    | none => m

end Sys2Proof.Machine
end

