-- ==== Sys2Proof/Machine/Domains.lean ====
section
/-! DEFINITION. Clock domains (R48, R49, R375 to R377): cores 0 to 191, bank-engine quadrant 192 + 4s + q, link port 240 + n, far port 256. -/
namespace Sys2Proof.Machine

def quadDom (s q : Nat) : Nat := 192 + 4 * s + q
def portDom (n : Nat) : Nat := 240 + n
def farDom : Nat := 256

/-- Lead time of a domain in ticks (R48). -/
def leadOf (d : Nat) : Nat := if d < 192 then 20 else if d < 240 then 10 else 50

def Mach.running (m : Mach) (d : Nat) : Bool := (m.dom d).st == 2

/-- A domain starts: ready one lead time from now; a start clears all votes and a stop that waits (R377). -/
def Mach.startDom (m : Mach) (d : Nat) : Mach :=
  let k := m.dom d
  if k.st = 0 then m.setDom d ⟨1, false, 0, m.tick + leadOf d⟩ else m.setDom d { k with stopPend := false, votes := 0 }

/-- A domain stops. -/
def Mach.stopDom (m : Mach) (d : Nat) : Mach := m.setDom d Dom.stopped

/-- Physical cores of a queue's core group. -/
def Mach.queueCores (m : Mach) (p q : Nat) : List Nat := (m.groupPhys p (q - 4)).filterMap id

/-- First port of a route word (R289). -/
def routePort (route k : Nat) : Nat := bits route (4 + 4 * k + 3) (4 + 4 * k)
def routeHops (route : Nat) : Nat := route % 16

/-- Domains that a command on queue q of partition p needs (R49, R198). -/
def Mach.needs (m : Mach) (p q : Nat) (c : Cmd) : List Nat :=
  match c.opcode with
  | 0x01 => m.queueCores p q
  | 0x02 => if c.p3 % 2 ^ 24 = 0 then [] else (List.range 4).map (quadDom (q - 8))
  | 0x05 => [portDom (routePort c.p4 0)]
  | 0x06 => [portDom (routePort c.p4 0)]
  | _ => []

/-- Domains that an issued command still uses. -/
def Mach.uses (m : Mach) (c : Issued) (d : Nat) : Bool := c.result.isNone && (m.needs c.part c.queue c.cmd).contains d

/-- On-demand starts at a command's issue: counted, one for each domain (R49). -/
def Mach.demand (m : Mach) (ds : List Nat) : Mach :=
  ds.foldl (fun m d => if (m.dom d).st = 0 then (m.startDom d).inc .TIME_SCHED_ONDEMAND else m) m

/-- A quadrant or port domain has every enabled partition's vote (R377). -/
def Mach.votedOut (m : Mach) (d : Nat) : Bool :=
  (List.range 16).all (fun p => !m.flag .SEC_PART_CTL_ENABLE p || bit (m.dom d).votes p)

/-- Stops that waited take effect where no issued command uses the domain any more (R49). -/
def Mach.settleStops (m : Mach) : Mach :=
  (m.doms.filter (fun e => e.2.stopPend)).foldl (fun m e => if m.sq.issued.any (fun c => m.uses c e.1) then m else m.stopDom e.1) m

/-- A stop takes effect at once, or waits for the issued commands that use the domain. -/
def Mach.stopOrWait (m : Mach) (d : Nat) : Mach :=
  if m.sq.issued.any (fun c => m.uses c d) then m.setDom d { m.dom d with stopPend := true } else m.stopDom d

/-- A partition's stop of a quadrant or link-port domain (R377): a vote. -/
def Mach.voteStop (m : Mach) (p d : Nat) : Mach :=
  if (m.dom d).st = 0 then m
  else
    let m := m.setDom d { m.dom d with votes := setBit (m.dom d).votes p }
    if m.votedOut d then m.stopOrWait d else m

/-- A port has relayed a frame within PWR_CFG.RELAYWIN ticks (R377, R382). -/
def Mach.relayed (m : Mach) (n : Nat) : Bool :=
  match m.power.relayAt.find? (fun e => e.1 == n) with
  | some e => decide (m.tick < e.2 + m.rd .PWR_CFG_RELAYWIN + 1)
  | none => false

/-- Every domain that an issued command needs runs. -/
def Mach.powered (m : Mach) (c : Issued) : Bool := (m.needs c.part c.queue c.cmd).all m.running

end Sys2Proof.Machine
end

