-- ==== Sys2Proof/Machine/Matrix.lean ====
section
/-! DEFINITION. The arithmetic of the matrix unit, the drain and the vector unit, on bytes (R128 to R133, R152 to R170): panel products with their checksum lanes, output rows, and the lane operations with their conversions. -/
namespace Sys2Proof.Machine

/-! ## Format pairs and panels (R128, R129) -/

/-- Fields of a format pair word. -/
def pairA (w : Nat) : Nat := bits w 4 0
def pairB (w : Nat) : Nat := bits w 9 5
def pairPb (w : Nat) : Nat := bits w 13 10
def pairPa (w : Nat) : Nat := bits w 17 14

/-- A planes value of an operand: 0, or 2 to n for PQn; 0 for every other format. -/
def planesOk (fmt k : Nat) : Bool := k == 0 || (decide (0x11 ≤ fmt) && decide (2 ≤ k) && decide (k ≤ fmt - 0x10))

/-- A pair word the tables of R128 allow. -/
def pairOk (w : Nat) : Bool :=
  bits w 63 18 == 0 && fmtValid (pairA w) && fmtValid (pairB w) &&
    (if pairB w = 1 then pairA w == 1 else decide (2 ≤ pairA w) && decide (2 ≤ pairB w)) &&
    planesOk (pairA w) (pairPa w) && planesOk (pairB w) (pairPb w)

/-- Bytes of the element or plane part of a panel of `n` elements, and of the panel (R129). -/
def panelElems (fmt n : Nat) : Nat := if planesOf fmt = 0 then n * elemBytes fmt else planesOf fmt * (n / 8)
def panelLen (fmt n : Nat) : Nat :=
  panelElems fmt n + (if scaleBlock fmt = 32 then n / 32 else if scaleBlock fmt = 64 then 256 else 0)

/-- Code of element i of a panel of n elements. -/
def panelCode (fmt n : Nat) (p : Bytes) (i : Nat) : Nat :=
  if planesOf fmt = 0 then field p (i * elemBytes fmt) (elemBytes fmt)
  else (List.range (planesOf fmt)).foldl (fun s b => s + b2n (bit (nthD p (b * (n / 8) + i / 8) 0).toNat (i % 8)) * 2 ^ b) 0

/-- Planes read of an operand: all of them for 0. -/
def planesRead (fmt k : Nat) : Nat := if k = 0 then planesOf fmt else k

/-- Value of element (row i, reduction k) of A: the reduction index runs fastest. -/
def aVal (w : Nat) (p : Bytes) (i k : Nat) : FVal :=
  elemVal (pairA w) (planesRead (pairA w) (pairPa w)) (panelCode (pairA w) 8192 p (i * 64 + k))

/-- Value of element (reduction k, column j) of B: the column index runs fastest. -/
def bVal (w : Nat) (p : Bytes) (k j : Nat) : FVal :=
  elemVal (pairB w) (planesRead (pairB w) (pairPb w)) (panelCode (pairB w) 16384 p (k * 256 + j))

/-- Scale of row i of A, and of column j of B, over the elements of which k is one. -/
def aScale (w : Nat) (p : Bytes) (i k : Nat) : FVal :=
  let f := pairA w
  if scaleBlock f = 0 then FVal.one else scaleVal f (nthD p (panelElems f 8192 + i * (64 / scaleBlock f) + k / scaleBlock f) 0).toNat

def bScale (w : Nat) (p : Bytes) (k j : Nat) : FVal :=
  let f := pairB w
  if scaleBlock f = 0 then FVal.one else scaleVal f (nthD p (panelElems f 16384 + k / scaleBlock f * 256 + j) 0).toNat

/-- Length of a scale block of a pair (R156). -/
def blockLen (w : Nat) : Nat := if scaleBlock (pairA w) = 32 ∨ scaleBlock (pairB w) = 32 then 32 else 64

/-! ## A scale block (R157, R158, R161, R162) -/

/-- One scale block of a panel, decoded: rows of A values, columns of B values, and their scales. -/
structure MBlock where
  a : List (List FVal)
  b : List (List FVal)
  sa : List FVal
  sb : List FVal

/-- Block t of a pair of panels. -/
def blockOf (w : Nat) (pa pb : Bytes) (t : Nat) : MBlock :=
  let n := blockLen w
  let ks := (List.range n).map (t * n + ·)
  { a := (List.range 128).map (fun i => ks.map (aVal w pa i))
    b := (List.range 256).map (fun j => ks.map (fun k => bVal w pb k j))
    sa := (List.range 128).map (fun i => aScale w pa i (t * n))
    sb := (List.range 256).map (fun j => bScale w pb (t * n) j) }

/-- Unscaled block sums S, row by row. -/
def MBlock.sums (x : MBlock) : List (List FVal) := x.a.map (fun r => x.b.map (fun c => blockSum (r.zip c)))

/-- The contribution a × b × S of a lane: a zero sum contributes an unsigned zero (R158). -/
def contribution (scale s : FVal) : FVal := if s.isZero && scale.isFinite then FVal.zero else scale.mul s

/-- The bank after one block: one rounding per lane. -/
def MBlock.accumulate (x : MBlock) (s : List (List FVal)) (acc : List Word32) : List Word32 :=
  ((List.range 128).map (fun i => (List.range 256).map (fun j =>
    Sys2Proof.Machine.accumulate (nthD acc (i * 256 + j) 0) ((nthD x.sa i .nan).mul (nthD x.sb j .nan)) (nthD (nthD s i []) j .nan)))).flatten

/-- The exact sum of a list of values. -/
def fsum (l : List FVal) : FVal := l.foldl FVal.add FVal.zero

/-- The difference of two finite values is zero. -/
def feq (x y : FVal) : Bool := (x.add y.neg).isZero

/-- A sum rounded to FP32 towards +∞. -/
def roundUp32 (v : FVal) : Word32 :=
  let r := rne32 v
  if (fp32Val r).lt v then r + 1 else r

/-- The exact test of R161 fails on a block: some tested row's or column's checksum sum differs from the sum of its lanes. Rows and columns with a non-finite element are not tested. -/
def MBlock.exactFails (x : MBlock) (s : List (List FVal)) : Bool :=
  let fin (l : List FVal) : Bool := l.all FVal.isFinite
  let bsum := (List.range (nthD x.b 0 []).length).map (fun k => fsum (x.b.map (fun c => nthD c k .nan)))
  let asum := (List.range (nthD x.a 0 []).length).map (fun k => fsum (x.a.map (fun r => nthD r k .nan)))
  (List.range 128).any (fun i => fin (nthD x.a i []) && x.b.all fin && !feq (blockSum ((nthD x.a i []).zip bsum)) (fsum (nthD s i []))) ||
  (List.range 256).any (fun j => fin (nthD x.b j []) && x.a.all fin && !feq (blockSum (asum.zip (nthD x.b j []))) (fsum (s.map (fun r => nthD r j .nan))))

/-- The checksum lanes after one block (R161, R162). -/
def MBlock.lanes (x : MBlock) (s : List (List FVal)) (l : Abft) : Abft :=
  let row (i : Nat) : List FVal := (List.range 256).map (fun j => contribution ((nthD x.sa i .nan).mul (nthD x.sb j .nan)) (nthD (nthD s i []) j .nan))
  let col (j : Nat) : List FVal := (List.range 128).map (fun i => contribution ((nthD x.sa i .nan).mul (nthD x.sb j .nan)) (nthD (nthD s i []) j .nan))
  let sum (old : List Word32) (k : Nat) (v : List FVal) : Word32 := rne32 ((fp32Val (nthD old k 0)).add (fsum v))
  let abs (old : List Word32) (k : Nat) (v : List FVal) : Word32 := roundUp32 ((fp32Val (nthD old k 0)).add (fsum (v.map FVal.abs)))
  { c := (List.range 128).map (fun i => sum l.c i (row i))
    w := (List.range 128).map (fun i => abs l.w i (row i))
    c' := (List.range 256).map (fun j => sum l.c' j (col j))
    w' := (List.range 256).map (fun j => abs l.w' j (col j))
    nb := l.nb + 1
    bad := l.bad || x.exactFails s }

/-- A panel product added into a bank, block by block in ascending reduction order (R159), with the bank's checksum lanes. -/
def panelProduct (w : Nat) (pa pb : Bytes) (acc : List Word32) (l : Abft) : List Word32 × Abft :=
  (List.range (64 / blockLen w)).foldl (fun r t =>
    let x := blockOf w pa pb t
    let s := x.sums
    (x.accumulate s r.1, x.lanes s r.2)) (acc, l)

/-- Sum of a list of FP32 lanes by the pairwise tree of R165. -/
def treeSum (l : List Word32) : Word32 := treeFold (fun a b => rne32 ((fp32Val a).add (fp32Val b))) 0 l

/-- The bounded test of R162 passes on one row or column. -/
def boundedOk (nb : Nat) (lanes : List Word32) (c w : Word32) : Bool :=
  if (lanes.all (fun x => (fp32Val x).isFinite)) && (fp32Val c).isFinite && (fp32Val w).isFinite then
    let d := ((fp32Val (treeSum lanes)).add (fp32Val c).neg).abs
    let bound := ((FVal.fin false (nb + 8) (-23)).mul (fp32Val w)).add (FVal.fin false 1 (-120))
    !bound.lt d
  else true

/-- The drain's comparison of a bank with its checksum lanes (R163): it fails. -/
def abftFails (acc : List Word32) (l : Abft) : Bool :=
  l.bad ||
  (List.range 128).any (fun i => !boundedOk l.nb ((List.range 256).map (fun j => nthD acc (i * 256 + j) 0)) (nthD l.c i 0) (nthD l.w i 0)) ||
  (List.range 256).any (fun j => !boundedOk l.nb ((List.range 128).map (fun i => nthD acc (i * 256 + j) 0)) (nthD l.c' j 0) (nthD l.w' j 0))

/-- Bytes of an output row of a drain (R131). -/
def drainRowLen (ofmt : Nat) : Nat := if ofmt = 0 then 1024 else if ofmt = 1 then 512 else 256

/-- Row i of a bank, times the scale register, in the drain's output format: one rounding (R166). -/
def drainRow (ofmt : Nat) (scale : Word32) (acc : List Word32) (i : Nat) : Bytes :=
  ((List.range 256).map (fun j =>
    let v := (fp32Val (nthD acc (i * 256 + j) 0)).mul (fp32Val scale)
    match ofmt with
    | 0 => toBytes 4 (rne32 v).toNat
    | 1 => toBytes 2 (rneBf16 v)
    | 2 => toBytes 1 (toE4M3 v)
    | _ => toBytes 1 (toE5M2 v))).flatten

/-! ## The vector unit (R133, R164 to R170) -/

/-- Bytes of a lane of a TYPE: FP32 0, BF16 1, INT32 2. -/
def laneBytes (ty : Nat) : Nat := if ty = 1 then 2 else 4

/-- Largest lane count of a TYPE. -/
def laneMax (ty : Nat) : Nat := if ty = 1 then 512 else 256

/-- Lanes of an entry. -/
def lanesOf (ty : Nat) (e : Bytes) : List Nat :=
  (List.range (min (e.length / laneBytes ty) (laneMax ty))).map (fun i => field e (i * laneBytes ty) (laneBytes ty))

def packLanes (ty : Nat) (l : List Nat) : Bytes := (l.map (toBytes (laneBytes ty))).flatten

/-- Signed reading of an INT32 lane. -/
def i32 (w : Nat) : Int := toSigned 32 w

/-- Lane-wise operations of two and three operands. -/
def laneOp (op ty a b c : Nat) : Nat :=
  if ty = 2 then
    match op with
    | 1 => (a + b) % 2 ^ 32
    | 2 => (a + (2 ^ 32 - b % 2 ^ 32)) % 2 ^ 32
    | 3 => a * b % 2 ^ 32
    | 4 => (a * b + c) % 2 ^ 32
    | 5 => if i32 a < i32 b then b else a
    | _ => if i32 a < i32 b then a else b
  else
    let x := laneVal ty a
    let y := laneVal ty b
    let z := laneVal ty c
    rneType ty (match op with
      | 1 => x.add y
      | 2 => x.add y.neg
      | 3 => x.mul y
      | 4 => (x.mul y).add z
      | 5 => fmax x y
      | _ => fmin x y)

/-- The functions of one operand: exp, rcp, rsqrt. -/
def laneFun (op ty a : Nat) : Nat :=
  let x := laneVal ty a
  rneType ty (match op with
    | 8 => vexp x
    | 9 => fdiv FVal.one x
    | _ => frsqrt x)

/-- The reductions, by the tree of R165: sum and maximum, rounding at every addition. -/
def laneReduce (op ty : Nat) (l : List Nat) : Nat :=
  if op = 0x10 then treeFold (laneOp 1 ty · · 0) 0 l
  else treeFold (laneOp 5 ty · · 0) (if ty = 2 then 0x80000000 else if ty = 1 then 0xFF80 else 0xFF800000) l

/-- vx.cmp: 1 where A < B; signed for INT32, and as IEEE operands compare else: two zeros are equal (R164). -/
def laneLt (ty a b : Nat) : Bool :=
  if ty = 2 then decide (i32 a < i32 b)
  else !((laneVal ty a).isZero && (laneVal ty b).isZero) && (laneVal ty a).lt (laneVal ty b)

/-- vx.sel's test: a lane is non-zero. -/
def laneNonZero (ty a : Nat) : Bool := if ty = 2 then a != 0 else !(laneVal ty a).isZero

/-- The pairs of R169. -/
def cvtOk (ty fmt : Nat) : Bool :=
  match ty with
  | 0 => (decide (1 ≤ fmt) && decide (fmt ≤ 8)) || (decide (0x12 ≤ fmt) && decide (fmt ≤ 0x18))
  | 1 => fmt == 0 || (decide (2 ≤ fmt) && decide (fmt ≤ 8)) || (decide (0x12 ≤ fmt) && decide (fmt ≤ 0x18))
  | 2 => fmt == 0 || fmt == 1 || fmt == 4
  | _ => false

/-- Value of a lane that vx.cvt converts. -/
def cvtVal (ty w : Nat) : FVal := if ty = 2 then FVal.ofInt (i32 w) else laneVal ty w

/-- A value in a format without block scale (R166). -/
def cvtPlain (fmt : Nat) (v : FVal) : Nat :=
  match fmt with
  | 0 => (rne32 v).toNat
  | 1 => rneBf16 v
  | 2 => toE4M3 v
  | 3 => toE5M2 v
  | _ => ofSigned 8 (toIntLim (-128) 127 v)

/-- The greatest magnitude of a block of finite values. -/
def blockMax (l : List FVal) : FVal := l.foldl (fun m v => if m.lt v.abs then v.abs else m) FVal.zero

/-- A value times a power of two. -/
def scale2 (v : FVal) (k : Int) : FVal := match v with | .fin s m e => .fin s m (e + k) | x => x

/-- A block of R167: the scale field, and the element codes. -/
def mxBlock (fmt : Nat) (l : List FVal) : Nat × List Nat :=
  if l.any (fun v => !v.isFinite) then (0xFF, l.map (fun _ => 0))
  else match blockMax l with
    | .fin _ m e =>
      if m = 0 then (127, l.map (fun _ => 0))
      else
        let emax : Int := if fmt = 8 then 2 else if fmt = 5 then 8 else if fmt = 6 then 15 else 0
        let fld := max 0 (min 254 (floorLog2 m e - emax + 127))
        (fld.toNat, l.map (fun v =>
          let u := scale2 v (127 - fld)
          match fmt with
          | 5 => toE4M3 u
          | 6 => toE5M2 u
          | 7 => ofSigned 8 (toIntLim (-128) 127 (scale2 u 6))
          | _ => toE2M1 u))
    | _ => (0xFF, l.map (fun _ => 0))

/-- A block of R168 for PQn: the scale code, and the element codes. -/
def pqBlock (n : Nat) (l : List FVal) : Nat × List Nat :=
  if l.any (fun v => !v.isFinite) then (0x7F, l.map (fun _ => 0))
  else
    let mx := blockMax l
    if mx.isZero then (0, l.map (fun _ => 0))
    else
      let top : Int := 2 ^ (n - 1) - 1
      let s := ((List.range 0x7F).find? (fun c => !((e4m3Val c).mul (FVal.ofInt top)).lt mx)).getD 0x7E
      (s, l.map (fun v => ofSigned n (toIntLim (-(2 ^ (n - 1))) top (fdiv v (e4m3Val s)))))

/-- Blocks of n of a list. -/
def chunk (n : Nat) (l : List FVal) : List (List FVal) := (List.range (ceilDiv l.length n)).map (fun i => (l.drop (i * n)).take n)

/-- One plane of codes, lanes / 8 bytes. -/
def cvtPlane (codes : List Nat) (b : Nat) : Bytes :=
  (List.range (codes.length / 8)).map (fun i => BitVec.ofNat 8 ((List.range 8).foldl (fun s j => s + b2n (bit (nthD codes (8 * i + j) 0) b) * 2 ^ j) 0))

/-- The bytes of vx.cvt's result before the zeros that fill the entry (R170). -/
def cvtBytes (ty fmt : Nat) (l : List Nat) : Bytes :=
  let vs := l.map (cvtVal ty)
  if scaleBlock fmt = 0 then (vs.map (fun v => toBytes (elemBytes fmt) (cvtPlain fmt v))).flatten
  else
    let bs := (chunk (scaleBlock fmt) vs).map (fun c => if fmt ≤ 8 then mxBlock fmt c else pqBlock (fmt - 0x10) c)
    let codes := (bs.map (·.2)).flatten
    (if planesOf fmt = 0 then (codes.map (toBytes 1)).flatten else ((List.range (planesOf fmt)).map (cvtPlane codes)).flatten) ++
      bs.map (fun x => BitVec.ofNat 8 x.1)

/-- Latency of a vector operation (R133). -/
def vecLatency (op : Nat) : Nat :=
  if op = 8 ∨ op = 9 ∨ op = 0xA then 10 else if op = 0x10 ∨ op = 0x11 then 12 else if op = 0x18 then 24 else if op = 0x20 then 6 else 4

/-- Queue operands that a vector operation reads. -/
def vecArity (op : Nat) : Nat :=
  match op with
  | 1 | 2 | 3 | 5 | 6 | 0x28 => 2
  | 4 | 0x29 => 3
  | 0x22 => 0
  | _ => 1

/-- Opcodes of the vector slot. -/
def vecKnown (op : Nat) : Bool := [1, 2, 3, 4, 5, 6, 8, 9, 0xA, 0x10, 0x11, 0x18, 0x20, 0x21, 0x22, 0x28, 0x29].contains op

/-- Operations that trap with FK_ILLEGAL for their TYPE or format (R164, R168, R169). -/
def vecIllegal (op ty fmt : Nat) : Bool :=
  ty == 3 || (ty == 2 && [8, 9, 0xA, 0x21].contains op) || (op == 0x20 && !cvtOk ty fmt)

/-- The bytes a vector operation pushes, from its operand entries; `n` lanes for vx.bcast. -/
def vecResult (op ty fmt : Nat) (sreg : Nat) (n : Nat) (es : List Bytes) : Bytes :=
  let a := lanesOf ty (nthD es 0 [])
  let b := lanesOf ty (nthD es 1 [])
  let c := lanesOf ty (nthD es 2 [])
  let sv := fp32Val (BitVec.ofNat 32 sreg)
  let sl := if ty = 1 then rneBf16 sv else sreg % 2 ^ 32
  match op with
  | 8 | 9 | 0xA => packLanes ty (a.map (laneFun op ty))
  | 0x10 | 0x11 => packLanes ty (a.map (fun _ => laneReduce op ty a))
  | 0x20 => cvtBytes ty fmt a
  | 0x21 => packLanes ty (a.map (fun x => rneType ty ((laneVal ty x).mul sv)))
  | 0x22 => packLanes ty (List.replicate n sl)
  | 0x28 => packLanes 2 ((a.zip b).map (fun x => b2n (laneLt ty x.1 x.2)))
  | 0x29 => packLanes ty ((List.range a.length).map (fun i => if laneNonZero ty (nthD a i 0) then nthD b i 0 else nthD c i 0))
  | _ => packLanes ty ((List.range a.length).map (fun i => laneOp op ty (nthD a i 0) (nthD b i 0) (nthD c i 0)))

end Sys2Proof.Machine
end

