-- ==== Sys2Proof/Machine/Cores.lean ====
section
/-! DEFINITION. The matrix cores (file 05): queues and tokens, the bundle and its slots, traps, the load and store units, and what a core's events do. The rows of the bundle's operations name a core;
their operands come from the bundle at its program counter. -/
namespace Sys2Proof.Machine

/-! ## Queues (R116 to R121) -/

namespace CQueue
def occ (q : CQueue) : Nat := q.pushed - q.popped
def free (q : CQueue) : Nat := q.depth - q.occ - q.held.length
def rew (q : CQueue) : Nat := min q.depth q.pushed - q.occ
/-- Entry size in bytes, and core-store offset of entry i. -/
def bytes (q : CQueue) : Nat := q.esize * 256
def offset (q : CQueue) (i : Nat) : Nat := q.base * 256 + i % q.depth * q.bytes
/-- Entry i is present and its token is set. -/
def readyAt (q : CQueue) (i : Nat) : Bool := decide (q.popped ≤ i) && decide (i < q.pushed) && !q.unready.contains i
/-- Push with the token clear, or set. -/
def push (q : CQueue) (ready : Bool) : CQueue :=
  { q with pushed := q.pushed + 1, unready := if ready then q.unready else q.unready ++ [q.pushed], poison := q.poison.filter (fun i => i + q.depth != q.pushed) }
/-- Pop of the head: held until it is released. -/
def pop (q : CQueue) : CQueue := { q with popped := q.popped + 1, pops := q.pops + 1, held := q.held ++ [(q.popped, q.pops)] }
/-- The entry that pop k holds is released; one rewound meanwhile is held by it no more (R120). -/
def release (q : CQueue) (k : Nat) : CQueue := { q with held := q.held.filter (fun x => x.2 != k) }
def setToken (q : CQueue) (i : Nat) (poison : Bool) : CQueue :=
  { q with unready := q.unready.filter (· != i), poison := if poison then q.poison ++ [i] else q.poison }
/-- Rewind by k: entries still held leave HELD (R120). -/
def rewind (q : CQueue) (k : Nat) : CQueue := { q with popped := q.popped - k, held := q.held.filter (fun x => decide (x.1 < q.popped - k)) }
end CQueue

def CoreData.queue (d : CoreData) (q : Nat) : CQueue := nget (fun _ => CQueue.none) d.queues q
def CoreData.setQueue (d : CoreData) (q : Nat) (v : CQueue) : CoreData := { d with queues := nset (fun _ => CQueue.none) d.queues q v }

/-- Unit that claims the tail of queue q: 1 load, 3 drain, 0 none. -/
def CoreData.tailClaim (d : CoreData) (q : Nat) : Nat :=
  if d.loads.any (fun l => l.dst == q && l.claims) then 1
  else if d.drainRun.any (·.dst == q) || d.drainWait.any (·.dst == q) then 3 else 0

/-- A store claims the head of queue q. -/
def CoreData.headClaim (d : CoreData) (q : Nat) : Bool := d.stores.any (fun s => s.src == q && s.left != 0)

/-- Configuration of queue q with a word (R116); nothing where it traps with FK_Q_CFG. -/
def CoreData.qcfg (d : CoreData) (q w : Nat) : Option CoreData :=
  let base := bits w 12 0
  let es := bits w 21 13
  let dp := bits w 32 22
  let old := d.queue q
  if bits w 63 33 ≠ 0 ∨ es = 0 ∨ 256 < es ∨ dp = 0 ∨ 1024 < dp ∨ 0x200000 < (base + es * dp) * 256 ∨ old.occ ≠ 0 ∨ old.held ≠ [] ∨ d.tailClaim q ≠ 0 ∨ d.headClaim q then none
  else some (d.setQueue q ⟨true, base, es, dp, 0, 0, 0, [], [], []⟩)

/-- A pop or KEEP read by a slot: the fault kind, or the entry's index and the queues after it (R117, R119, R121). -/
def CoreData.take (d : CoreData) (operand need : Nat) : Except Nat (Nat × CoreData) :=
  let q := operand % 32
  let k := d.queue q
  if !k.configured then .error fkQCfg
  else if d.headClaim q then .error fkQClaim
  else if k.occ = 0 then .error fkQUnderflow
  else if !k.readyAt k.popped then .error fkQUnready
  else if k.bytes < need then .error fkQSize
  else .ok (k.popped, if bit operand 5 then d else d.setQueue q k.pop)

/-- A push by a slot with the token clear: the fault kind, or the entry's index and the queues after it. -/
def CoreData.give (d : CoreData) (q need : Nat) : Except Nat (Nat × CoreData) :=
  let k := d.queue q
  if !k.configured then .error fkQCfg
  else if d.tailClaim q ≠ 0 then .error fkQClaim
  else if k.free = 0 then .error fkQOverflow
  else if k.bytes < need then .error fkQSize
  else .ok (k.pushed, d.setQueue q (k.push false))

/-! ## Bundles (R122, R123) -/

/-- Slots in the order of evaluation: 1 sync, 2 scalar, 3 vector, 4 matrix, 5 load, 6 store. -/
def slotWord (b : Bundle) (k : Nat) : Nat :=
  match k with
  | 1 => bits b.toNat 255 232
  | 2 => bits b.toNat 47 0
  | 3 => bits b.toNat 111 48
  | 4 => bits b.toNat 143 112
  | 5 => bits b.toNat 191 144
  | _ => bits b.toNat 231 192

/-- The next slot after slot k that is no nop. -/
def nextSlot (b : Bundle) (k : Nat) : Option Nat := ([1, 2, 3, 4, 5, 6].filter (fun j => decide (k < j))).find? (fun j => slotWord b j % 256 != 0)

/-- An undefined opcode or a non-zero reserved field (R123), or a form that R127, R134 and R164 make illegal. -/
def slotIllegal (k w : Nat) : Bool :=
  let op := w % 256
  match k with
  | 1 => decide (13 < op)
  | 2 =>
    !(decide (op ≤ 0xE) || (decide (0x10 ≤ op) && decide (op ≤ 0x13)) || (decide (0x18 ≤ op) && decide (op ≤ 0x1F))) ||
      (decide (0x10 ≤ op) && decide (op ≤ 0x13) && bits w 47 35 != 0) ||
      (op == 0x1F && (bits w 47 27 != 0 || decide (5 < bits w 25 23)))
  | 3 => !vecKnown op || bits w 63 43 != 0 || vecIllegal op (bits w 32 31) (bits w 42 38)
  | 4 => decide (2 < op) || (op == 2 && (bits w 19 13 != 0 || bits w 23 21 != 0 || decide (3 < bits w 31 29)))
  | 5 => decide (1 < op) || bits w 47 37 != 0 || bits w 36 35 == 3
  | _ => decide (1 < op) || bit w 39

def Mach.bundleAt (m : Mach) (n pc : Nat) : Bundle := nget (fun _ => 0) m.istore (n * 4096 + pc)

def Mach.coreD (m : Mach) (n : Nat) : CoreData := (m.core n).d
def Mach.setD (m : Mach) (n : Nat) (d : CoreData) : Mach := m.setCore n { m.core n with d := d }

/-- The issued KERNEL that a core runs. -/
def Mach.kernelOf (m : Mach) (n : Nat) : Option Issued := (m.core n).kernel.bind m.issuedOf

/-- Its number among the issued commands. -/
def Mach.kernelId (m : Mach) (n : Nat) : Option Nat := (m.kernelOf n).map (·.id)

/-- Partition whose kernel a core runs. -/
def Mach.corePart (m : Mach) (n : Nat) : Nat := match m.kernelOf n with | some c => c.part | none => 0

/-- Physical cores of an issued KERNEL's group. -/
def Mach.kernelCores (m : Mach) (c : Issued) : List Nat := m.queueCores c.part c.queue

/-- A switch out of partition p is requested and its cores are to stop (R144, R278, R343). -/
def Mach.switchWanted (m : Mach) (p : Nat) : Bool :=
  (m.flag .SEC_PSW_BUSY && m.switch.out == p && decide (m.rd .SEC_PSW_PHASE ≤ 2)) || m.selfCheck.any (fun s => s.parts.contains p)

/-! ## Traps (R141, R142) -/

/-- Status of a KERNEL that a trap of this kind ends. -/
def trapStatus (kind : Nat) : Nat := if kind = fkIfetchUe ∨ kind = fkDataUe then stUe else if kind = fkAbft then stAbft else stCoreTrap

/-- What a core drops when it stops: loads, panel products and drains; its stores have ended with the entry in progress. -/
def CoreData.stopped (d : CoreData) : CoreData :=
  { d with macRun := none, macWait := none, drainRun := none, drainWait := none, vtoks := [], loads := [], stores := [] }

/-- The trap that decides the status of its group: the earliest, and of those in one cycle the one of the lowest logical core (R141). -/
def Mach.noteTrap (m : Mach) (id : Nat) (g : GroupStop) : Mach :=
  match m.groupStops.find? (fun x => x.cmdId == id) with
  | none => { m with groupStops := m.groupStops ++ [g] }
  | some x =>
    if g.cycle < x.cycle ∨ (g.cycle = x.cycle ∧ g.logical < x.logical) then { m with groupStops := m.groupStops.map (fun y => if y.cmdId = id then g else y) } else m

/-- A core traps: it stops, its registers and the fault record say so, and its group is to stop (R141, R142). -/
def Mach.trapCore (m : Mach) (n kind : Nat) : Mach :=
  let c := m.core n
  let m := m.setCore n { c with run := false, fetched := false, slot := 0, d := c.d.stopped }
  let m := (m.wr .CORE_STAT_TRAPPED 1 n).wr .CORE_STAT_LASTFK kind n
  let m := if kind = fkAbft then m.inc .CORE_ABFT_COUNT 1 n else m
  match m.kernelOf n with
  | none => m.post ⟨0, 0, 0, 0, n, kind⟩
  | some k =>
    let m := m.postFor (some k.id) ⟨k.part, 0, 0, 0, n, kind⟩
    let m := if trapStatus kind = stUe then m.takeOut causeUe k else m
    m.noteTrap k.id ⟨k.id, trapStatus kind, c.cycle, (m.map n).logical⟩

/-- A slot traps: the whole bundle's effects are taken back first (R123). -/
def Mach.trapBundle (m : Mach) (n kind : Nat) : Mach := (m.setD n (m.core n).before).trapCore n kind

/-! ## Results that come due (R118, R125) -/

/-- Scalar results due by a cycle reach their registers, in order of cycle, the later-issued last. -/
def settleScalar (cycle : Nat) (d : CoreData) : CoreData :=
  let due := d.pend.filter (fun p => decide (p.due ≤ cycle))
  let order := due.foldl (fun l p => (l.takeWhile (fun x => decide (x.due ≤ p.due))) ++ p :: l.dropWhile (fun x => decide (x.due ≤ p.due))) []
  { d with sregs := order.foldl (fun l p => nset (fun _ => 0) l p.reg p.val) d.sregs
           landed := (d.landed.filter (fun x => x.2.1 == cycle)) ++ (due.filter (fun p => p.due == cycle)).map (fun p => (p.reg, p.due, p.issue))
           pend := d.pend.filter (fun p => !decide (p.due ≤ cycle)) }

/-- A unit's own progress changes a core's data: a bundle that traps later does not take it back (R123). -/
def Mach.onUnits (m : Mach) (n : Nat) (f : CoreData → CoreData) : Mach :=
  let c := m.core n
  m.setCore n { c with d := f c.d, before := if c.fetched then f c.before else c.before }

/-- Bytes written to a core's own store. -/
def Mach.coreWrite (m : Mach) (n off : Nat) (bs : Bytes) : Mach := (m.writeArray (coreAddr n off) bs).1

/-- A vector result's bytes reach its entry and its token is set. -/
def Mach.setVTok (m : Mach) (n : Nat) (t : VTok) : Mach :=
  let m := m.coreWrite n (((m.coreD n).queue t.q).offset t.idx) t.bytes
  m.onUnits n (fun d => { d.setQueue t.q ((d.queue t.q).setToken t.idx false) with vtoks := d.vtoks.filter (fun x => !(x.q == t.q && x.idx == t.idx)) })

/-- Everything due by the core's cycle arrives. -/
def Mach.settle (m : Mach) (n : Nat) : Mach :=
  let c := m.core n
  let m := m.onUnits n (settleScalar c.cycle)
  (c.d.vtoks.filter (fun t => decide (t.due ≤ c.cycle))).foldl (fun m t => m.setVTok n t) m

/-- The bundle at a running core's program counter has yet to pass its sync slot (R115). -/
def Mach.atSync (m : Mach) (n : Nat) : Bool :=
  let c := m.core n
  c.run && !c.atSwitch && nextSlot (m.bundleAt n c.d.pc) c.slot == some 1

/-- The core's cycle moves to at least k; the cycles count as stalled where the bundle waits on its sync condition (R115). -/
def Mach.toCycle (m : Mach) (n k : Nat) : Mach :=
  let c := m.core n
  let m := if m.atSync n then m.incMod .CORE_STALLED_COUNT (max c.cycle k - c.cycle) n else m
  (m.setCore n { c with cycle := max c.cycle k }).settle n

/-! ## The store and load units (R134 to R137) -/

/-- An address that loads and stores of partition p may name: the stacks, or the store of a core of the partition (R135). -/
def Mach.ldstOk (m : Mach) (p a : Nat) : Bool :=
  match m.locOf a with
  | .stack _ _ _ => true
  | .core k _ => (match m.groupOf k with | some g => g.1 == p || (List.range 4).any (fun x => (m.groupLogical p x).contains (m.map k).logical) | none => false)
  | _ => false

/-- A descriptor of a load or store: its words, with the right the access needs; none where the handle or right is invalid. -/
def Mach.ldstDesc (m : Mach) (p h : Nat) (wr : Bool) : Option (List Nat) :=
  match m.resolveHandle p h with
  | some w =>
    let t := m.tensorOf p w
    if m.flag (if wr then .SEC_ALLOC_WRITE else .SEC_ALLOC_READ) p t.alloc && (!wr || t.wr) then some w else none
  | none => none

/-- Every address of tile k may be accessed. -/
def Mach.tileOk (m : Mach) (p : Nat) (t : Tensor) (k : Nat) : Bool := decide (k < t.tileCount) && (t.tileTouch k).all (m.ldstOk p)

/-- The first store that has entries left. -/
def CoreData.frontStore (d : CoreData) : Option StoreOp := d.stores.find? (fun s => s.left != 0)

/-- A core reads or writes bytes of stacks (R40). -/
def Mach.coreTouch (m : Mach) (n : Nat) (as : List Nat) : Mach :=
  match m.kernelOf n with
  | some c => m.throttleTouch c.id (((unitsOf 256 as).filter m.inStacks).map stackOf)
  | none => m

/-- Part of a store was discarded at an uncorrectable codeword (R331): recorded, and the KERNEL will end with ST_UE. -/
def Mach.storeLost (m : Mach) (n p a : Nat) : Mach :=
  let m := m.postUe p (m.kernelId n) a a
  match m.kernelOf n with
  | some c => m.setIssued { c with extra := [stUe] }
  | none => m

/-- One entry of the oldest store is read into the store unit and written to its tile; nothing where it has to wait. A poisoned entry or a bad address traps. -/
def Mach.storeOne (m : Mach) (n : Nat) : Option (Except (Mach × Nat) Mach) :=
  let d := m.coreD n
  match d.frontStore with
  | none => none
  | some s =>
    let q := d.queue s.src
    let i := q.popped
    let p := s.part
    if !q.readyAt i then none
    else
      let t := m.tensorOf p s.words
      let a := coreAddr n (q.offset i)
      if q.poison.contains i then some (.error (m, fkDataUe))
      else if m.readUe false a t.tileLen then some (.error (m.noteRead false a t.tileLen, fkDataUe))
      else if !m.tileOk p t s.tile then some (.error (m, fkLdstAddr))
      else
        let entry := m.read false a t.tileLen
        let m := m.noteRead false a t.tileLen
        let ws := t.storeWrites s.tile entry
        let w := match (t.tileTouch s.tile).findSome? m.coreInReset with
          | some u => (m.isoAbort (m.kernelId n) p 0 u 1, false)
          | none => m.applyWrites p (s.hint == 0) t ws
        let m := if w.2 then w.1.storeLost n p (m.lostUnit ws) else w.1
        let m := m.coreTouch n (t.tileTouch s.tile)
        let stores := d.stores.foldl (fun (r : List StoreOp × Bool) x =>
          if x.left != 0 && !r.2 then (r.1 ++ [{ x with tile := x.tile + 1, left := x.left - 1 }], true) else (r.1 ++ [x], r.2)) ([], false)
        some (.ok (m.setD n { d.setQueue s.src { q with popped := q.popped + 1 } with stores := stores.1 }))

/-- Stores go on as far as they can; a trap comes with the state that the entries before it left (R141). -/
def pumpStores (n : Nat) : Nat → Mach → Except (Mach × Nat) Mach
  | 0, m => .ok m
  | k + 1, m => match m.storeOne n with
    | none => .ok m
    | some (.error e) => .error e
    | some (.ok m') => pumpStores n k m'

/-- Entries requested and not written. -/
def CoreData.asked (d : CoreData) : Nat := d.loads.foldl (fun s l => s + l.asked.length) 0

/-- One entry of the oldest load with tiles left is requested: nothing where no slot is free or 64 are outstanding (R114, R136). -/
def Mach.loadOne (m : Mach) (n : Nat) : Option (Except (Mach × Nat) Mach) :=
  let d := m.coreD n
  match d.loads.find? (fun l => l.left != 0 || l.queued != []) with
  | none => none
  | some l =>
    let q := d.queue l.dst
    let p := l.part
    if 64 ≤ d.asked then none
    else if l.queued != [] then
      let loads := d.loads.foldl (fun (r : List LoadOp × Bool) x =>
        if x.queued != [] && !r.2 then (r.1 ++ [{ x with asked := x.asked ++ x.queued, queued := [] }], true) else (r.1 ++ [x], r.2)) ([], false)
      some (.ok (m.setD n { d with loads := loads.1 }))
    else if q.free = 0 then none
    else if !m.tileOk p (m.tensorOf p l.words) l.tile then some (.error (m, fkLdstAddr))
    else
      let loads := d.loads.foldl (fun (r : List LoadOp × Bool) x =>
        if (x.left != 0 || x.queued != []) && !r.2 then (r.1 ++ [{ x with tile := x.tile + 1, left := x.left - 1, asked := x.asked ++ [(q.pushed, l.tile)] }], true) else (r.1 ++ [x], r.2)) ([], false)
      some (.ok (m.setD n { d.setQueue l.dst (q.push false) with loads := loads.1 }))

def pumpLoads (n : Nat) : Nat → Mach → Except (Mach × Nat) Mach
  | 0, m => .ok m
  | k + 1, m => match m.loadOne n with
    | none => .ok m
    | some (.error e) => .error e
    | some (.ok m') => pumpLoads n k m'

/-- Both units go on as far as queues and tokens allow; a failing tile traps. -/
def Mach.pump (m : Mach) (n : Nat) : Mach :=
  match pumpStores n 8192 m with
  | .error e => e.1.trapCore n e.2
  | .ok m => match pumpLoads n 64 m with
    | .error e => e.1.trapCore n e.2
    | .ok m' => m'

/-! ## Issue -/

/-- The next bundle after pc, with the loop levels that end there (R126). -/
def loopEnd (pc : Nat) : List LoopLevel → Nat × List LoopLevel
  | [] => ((pc + 1) % 4096, [])
  | l :: rest => if l.last = pc then (if l.left = 0 then loopEnd pc rest else (l.first, { l with left := l.left - 1 } :: rest)) else ((pc + 1) % 4096, l :: rest)

/-- The program counter moves past the bundle. -/
def CoreData.advance (d : CoreData) : CoreData :=
  match d.nextPc with
  | some t => { d with pc := t, nextPc := none }
  | none => let r := loopEnd d.pc d.loops; { d with pc := r.1, loops := r.2 }

/-- Wrong symbols of half h of a bundle of core n's instruction store (R327). -/
def Mach.bundleWrong (m : Mach) (n pc h : Nat) : Nat := nget (fun _ => 0) m.istoreWrong (n * 8192 + pc * 2 + h)

/-- Halves of a bundle with wrong symbols enter the error log when it is fetched: array 3, the half's index (R328, R335). -/
def Mach.logFetch (m : Mach) (n pc : Nat) : Mach :=
  [0, 1].foldl (fun m h =>
    let w := m.bundleWrong n pc h
    let loc := n + (pc * 2 + h) * 256
    if w = 1 then (let r := m.draw; r.2.logError 0x30 (r.1 % 36) loc) else if 2 ≤ w then m.logError 0x31 0xFF loc else m) m

/-- A bundle index lies in the range of a fill in progress. -/
def CoreData.filling (d : CoreData) (pc : Nat) : Bool := d.ifill.any (fun f => decide (f.dst ≤ pc) && decide (pc < f.dst + f.count))

/-- Bundles with no slot in use are passed, a cycle each. -/
def skipNops (n : Nat) : Nat → Mach → Mach
  | 0, m => m
  | k + 1, m =>
    let c := m.core n
    if (nextSlot (m.bundleAt n c.d.pc) 0).isNone && !c.d.filling c.d.pc && m.bundleWrong n c.d.pc 0 == 0 && m.bundleWrong n c.d.pc 1 == 0 then
      skipNops n k (((m.setCore n { c with cycle := c.cycle + 1, d := c.d.advance }).incMod .CORE_ISSUED_COUNT 1 n))
    else m

/-- The bundle at the program counter is fetched, once: the fault kind of a fetch that traps (R145, R146). -/
def Mach.fetch (m : Mach) (n : Nat) : Mach × Option Nat :=
  if (m.core n).fetched then (m, none)
  else
    let m := (skipNops n 4096 m).settle n
    let c := m.core n
    let w := max (m.bundleWrong n c.d.pc 0) (m.bundleWrong n c.d.pc 1)
    let m := m.logFetch n c.d.pc
    if 2 ≤ w then (((m.wr .CORE_ISTAT_UEBUNDLE c.d.pc n).wr .CORE_ISTAT_UEVALID 1 n), some fkIfetchUe)
    else if c.d.filling c.d.pc then (m, some fkIfillRace)
    else
      let m := if w = 1 then m.inc .CORE_ISTAT_CECOUNT 1 n else m
      (m.setCore n { c with fetched := true, before := c.d, syncFrom := c.cycle, slot := 0 }, none)

/-- The bundle ends: popped entries of the vector slot are released, the program counter and the cycle move on, and the units that stream go on. -/
def Mach.endBundle (m : Mach) (n : Nat) : Mach :=
  let c := m.core n
  let d := c.d.rel.foldl (fun d r => d.setQueue r.1 ((d.queue r.1).release r.2)) c.d
  let m := m.setCore n { c with fetched := false, slot := 0, cycle := c.cycle + 1 + d.bubble, d := { d.advance with rel := [], bubble := 0, mf := d.mfNext.foldl (fun l x => nset (fun _ => 0) l x.1 x.2) d.mf, mfNext := [] } }
  ((m.incMod .CORE_ISSUED_COUNT 1 n).settle n).pump n

/-- Slot k has acted. -/
def Mach.endSlot (m : Mach) (n k : Nat) : Mach :=
  let m := m.setCore n { m.core n with slot := k }
  if (nextSlot (m.bundleAt n (m.coreD n).pc) k).isSome then m else m.endBundle n

/-- What a slot does when its turn comes. -/
inductive Act where
  | done (m : Mach)
  | wait
  | hold (m : Mach)
  | trap (kind : Nat)
  /-- A trap of a consumer whose own read of the core store is uncorrectable: the read counts (R146). -/
  | trapUe (a len : Nat)

/-- A cycle in which the bundle waits on its sync condition (R115). -/
def Mach.stallCycle (m : Mach) (n : Nat) : Mach :=
  (((m.setCore n { m.core n with cycle := (m.core n).cycle + 1 }).incMod .CORE_STALLED_COUNT 1 n).settle n).pump n

/-- A bundle none of whose slots has acted takes the core as it stands now for the state before it (R123): units may have ended while it waited. -/
def Mach.begun (m : Mach) (n : Nat) : Mach := if (m.core n).slot = 0 then m.setCore n { m.core n with before := (m.core n).d } else m

/-- The row of an operation of slot k: it acts when it is the next one of core n's bundle; otherwise nothing happens (log entry 16). -/
def Mach.slotRow (m : Mach) (n k op : Nat) (act : Nat → Mach → Act) : Mach :=
  if !(m.core n).run || (m.core n).atSwitch || !m.running n then m
  else
    let r := m.fetch n
    match r.2 with
    | some kind => r.1.trapCore n kind
    | none =>
      let b := r.1.bundleAt n (r.1.coreD n).pc
      match nextSlot b (r.1.core n).slot with
      | none => m
      | some j =>
        let w := slotWord b j
        let m0 := r.1.begun n
        if slotIllegal j w then m0.trapBundle n fkIllegal
        else if j = k ∧ w % 256 = op then
          match act w m0 with
          | .done m' => m'.endSlot n k
          | .wait => m0.stallCycle n
          | .hold m' => m'
          | .trap kind => m0.trapBundle n kind
          | .trapUe a len => (m0.noteRead false a len).trapBundle n fkDataUe
        else m

/-! ## Scalar slot (R124 to R127) -/

/-- Register of a core as the running bundle reads it. -/
def CoreData.s (d : CoreData) (r : Nat) : Word64 := nget (fun _ => 0) d.sregs r

def wD (w : Nat) : Nat := bits w 12 8
def wA (w : Nat) : Nat := bits w 17 13
def wB (w : Nat) : Nat := bits w 22 18
def wImm (w : Nat) : Int := toSigned 25 (bits w 47 23)
def wTarget (w : Nat) : Nat := bits w 34 23

/-- A result reaches its register `lat` cycles after issue. -/
def CoreData.result (d : CoreData) (cycle lat r : Nat) (v : Word64) : CoreData := { d with pend := d.pend ++ [⟨r, v, cycle, cycle + lat⟩] }

/-- A scalar operation whose result is a function of the core's data and the slot. -/
def scalarRow (n op lat : Nat) (f : CoreData → Nat → Word64) (m : Mach) : Mach :=
  m.slotRow n 2 op (fun w m => let c := m.core n; .done (m.setD n (c.d.result c.cycle lat (wD w) (f c.d w))))

/-- A scalar operation that changes the core's data, or traps. -/
def scalarAct (n op : Nat) (f : CoreData → Nat → Except Nat CoreData) (m : Mach) : Mach :=
  m.slotRow n 2 op (fun w m => match f (m.coreD n) w with | .ok d => .done (m.setD n d) | .error e => .trap e)

/-- A taken branch (R126): two cycles without issue; loop levels whose body does not hold the target end. -/
def CoreData.branch (d : CoreData) (t : Nat) : CoreData :=
  { d with nextPc := some t, bubble := 2, loops := d.loops.dropWhile (fun l => !(decide (l.first ≤ t) && decide (t ≤ l.last))) }

/-- sc.loop: the next bundle starts the body, or a count of zero passes it. -/
def CoreData.loop (d : CoreData) (w : Nat) : Except Nat CoreData :=
  let count := (d.s (wA w)).toNat
  let last := wTarget w
  if count = 0 then (let r := loopEnd last d.loops; .ok { d with nextPc := some r.1, loops := r.2 })
  else if 4 ≤ d.loops.length then .error fkLoopDepth
  else .ok { d with nextPc := some ((d.pc + 1) % 4096), loops := ⟨(d.pc + 1) % 4096, last, count - 1⟩ :: d.loops }

/-- sc.ldc: a 64-bit word of the core store; a poisoned one is a consumer's trap (R146). -/
def Mach.loadConst (m : Mach) (n w : Nat) : Act :=
  let c := m.core n
  let off := ((c.d.s (wA w)).toInt + wImm w) % 2 ^ 64
  let a := coreAddr n off.toNat
  if 0x1FFFF8 < off ∨ off % 8 ≠ 0 then .trap fkLdstAddr
  else if m.readUe false a 8 then .trapUe a 8
  else .done ((m.noteRead false a 8).setD n (c.d.result c.cycle 4 (wD w) (BitVec.ofNat 64 (m.readNat false a 8))))

/-- sc.myid (R124). -/
def Mach.myId (m : Mach) (n : Nat) : Nat :=
  let l := (m.map n).logical
  let g := match m.kernelOf n with | some c => m.groupLogical c.part (c.queue - 4) | none => []
  l + g.findIdx (· == l) * 2 ^ 8 + g.length % 256 * 2 ^ 16 + n * 2 ^ 24

/-- A fill's range passes bundle 4,095 or the end of the core store (R145). -/
def fillBad (src dst count : Nat) : Bool := decide (4096 < dst + count) || decide (0x200000 < src + count * 32)

/-- sc.ifill: a copy of bundles in the background. -/
def CoreData.startFill (d : CoreData) (w : Nat) : Except Nat CoreData :=
  let src := (d.s (wA w)).toNat
  let dst := (d.s (wB w)).toNat
  if wImm w < 0 ∨ fillBad src dst (wImm w).toNat then .error fkQCfg
  else .ok { d with ifill := d.ifill ++ [⟨src, dst, (wImm w).toNat⟩] }

/-- The bundles of a fill reach the instruction store. -/
def Mach.fillBundles (m : Mach) (n : Nat) (f : IFill) : Mach :=
  (List.range f.count).foldl (fun m i =>
    let a := coreAddr n (f.src + i * 32)
    let k := n * 4096 + f.dst + i
    let bad (h : Nat) : Nat := if m.halfWrong a h then 2 else 0
    let m := m.noteRead false a 32
    { m with istore := nset (fun _ => 0) m.istore k (BitVec.ofNat 256 (m.readNat false a 32))
             istoreWrong := nset (fun _ => 0) (nset (fun _ => 0) m.istoreWrong (k * 2) (bad 0)) (k * 2 + 1) (bad 1) }) m

/-- The oldest fill of a core ends. -/
def ifillDone (n : Nat) (m : Mach) : Mach :=
  let d := m.coreD n
  match d.ifill with
  | [] => m
  | f :: rest => ((m.fillBundles n f).onUnits n (fun d => { d with ifill := rest })).wr .CORE_IFILLST_DONE 1 n

/-- CORE[n].IFILL.GO with its fields (R145). -/
def ifillGo (n src dst count : Nat) (m : Mach) : Mach :=
  let m := ((m.wr .CORE_IFILL_SRC src n).wr .CORE_IFILL_DST dst n).wr .CORE_IFILL_COUNT count n
  if (m.core n).run then (m.wr .CORE_IFILLST_REFUSED 1 n).badAcc
  else if fillBad (m.rd .CORE_IFILL_SRC n) (m.rd .CORE_IFILL_DST n) (m.rd .CORE_IFILL_COUNT n) then m.wr .CORE_IFILLST_REFUSED 1 n
  else
    let d := m.coreD n
    m.setD n { d with ifill := d.ifill ++ [⟨m.rd .CORE_IFILL_SRC n, m.rd .CORE_IFILL_DST n, m.rd .CORE_IFILL_COUNT n⟩] }

/-- sc.amo issues (R127): bits [63:48] of the address, region and alignment are judged when it completes. -/
def CoreData.startAmo (d : CoreData) (cycle w : Nat) : Except Nat CoreData :=
  if d.amo.isSome then .error fkAmoBusy
  else .ok { d with amo := some ⟨cycle, wD w, (d.s (wA w)).toNat, bits w 25 23, bit w 26, (d.s (wB w)).toNat, (d.s (wD w)).toNat⟩ }

/-- The row of sc.amo. -/
def amoRow (n : Nat) (m : Mach) : Mach :=
  m.slotRow n 2 0x1F (fun w m => match (m.coreD n).startAmo (m.core n).cycle w with | .ok d => .done (m.setD n d) | .error e => .trap e)

/-- The value that an atomic replaced reaches its register, unless the result of a later-issued operation reached it in the same cycle (R125). -/
def CoreData.amoResult (cycle : Nat) (a : CoreAmo) (v : Nat) (d : CoreData) : CoreData :=
  if d.landed.any (fun x => x.1 == a.dst && x.2.1 == cycle && decide (a.issue < x.2.2)) then { d with amo := none }
  else { d with amo := none, sregs := nset (fun _ => 0) d.sregs a.dst (BitVec.ofNat 64 v) }

/-- The atomic of a core completes, or is refused; a core that has stopped records no trap (R141). -/
def amoComplete (n : Nat) (m : Mach) : Mach :=
  let c := m.core n
  match c.d.amo with
  | none => m
  | some a =>
    let ends (m : Mach) (kind : Nat) : Mach := let m := m.onUnits n (fun d => { d with amo := none }); if c.run then m.trapCore n kind else m
    let len := if a.wide then 8 else 4
    if 2 ^ 48 ≤ a.addr || !m.amoTarget a.addr a.wide then ends m fkAmoRefused
    else
      let p := m.corePart n
      let m := (m.mirrorAll false p (m.kernelId n) a.addr len).2
      if m.readUe false a.addr len then ends ((m.noteRead false a.addr len).postUe p (m.kernelId n) (a.addr / 32 * 32) (a.addr / 32 * 32)) fkDataUe
      else
        let r := m.amoDo p a.addr a.op a.wide a.operand a.compare
        (r.2.coreTouch n [a.addr]).onUnits n (CoreData.amoResult c.cycle a r.1)

/-- The next scalar result of a core reaches its register at its cycle. -/
def scalarResult (n : Nat) (m : Mach) : Mach :=
  match (m.coreD n).pend with
  | [] => m
  | p :: ps => (m.toCycle n ((p :: ps).foldl (fun k x => min k x.due) p.due)).pump n

/-- The next vector result's token is set at its cycle. -/
def vectorToken (n : Nat) (m : Mach) : Mach :=
  match (m.coreD n).vtoks with
  | [] => m
  | t :: ts => (m.toCycle n ((t :: ts).foldl (fun k x => min k x.due) t.due)).pump n

/-! ## Vector slot (R133) -/

/-- An entry's bytes, or the trap of a consumer of a poisoned one (R146). -/
def Mach.entry (m : Mach) (n q i len : Nat) : Except Nat Bytes :=
  let k := (m.coreD n).queue q
  let a := coreAddr n (k.offset i)
  if k.poison.contains i || m.readUe false a len then .error fkDataUe else .ok (m.read false a len)

/-- The first of a slot's operands, each with its length, whose entry lies in the core store uncorrectable. -/
def Mach.badEntry (m : Mach) (n : Nat) : List (Nat × Nat) → CoreData → Option (Nat × Nat)
  | [], _ => none
  | x :: rest, d =>
    match d.take x.1 0 with
    | .error _ => none
    | .ok (i, d') =>
      let a := coreAddr n (((m.coreD n).queue (x.1 % 32)).offset i)
      if m.readUe false a x.2 then some (a, x.2) else badEntry m n rest d'

/-- The trap of a slot whose operands failed. -/
def operandTrap (kind : Nat) (bad : Option (Nat × Nat)) : Act :=
  match bad with
  | some x => if kind = fkDataUe then .trapUe x.1 x.2 else .trap kind
  | none => .trap kind

/-- The operands of a vector operation are read in order A, B, C: their entries, what was popped, and the queues after. -/
def vecOperands (m : Mach) (n : Nat) : List Nat → CoreData → Except Nat (List Bytes × List (Nat × Nat) × CoreData)
  | [], d => .ok ([], [], d)
  | o :: rest, d =>
    match d.take o 0 with
    | .error e => .error e
    | .ok (i, d') => match m.entry n (o % 32) i (d.queue (o % 32)).bytes with
      | .error e => .error e
      | .ok bs => match vecOperands m n rest d' with
        | .error e => .error e
        | .ok (es, ps, d'') => .ok (bs :: es, (if bit o 5 then ps else (o % 32, (d.queue (o % 32)).pops) :: ps), d'')

/-- Core-store offset of the element that an index of vx.gather names: sSREG + A[i] × element size. -/
def gatherOff (ty sreg x : Nat) : Int := ((sreg : Int) + i32 x * (laneBytes ty : Int)) % 2 ^ 64

/-- vx.gather's lanes. -/
def Mach.gatherLanes (m : Mach) (n ty sreg : Nat) : List Nat → Except Nat (List Nat)
  | [] => .ok []
  | x :: rest =>
    let off := gatherOff ty sreg x
    let a := coreAddr n off.toNat
    if 0x200000 < off + laneBytes ty then .error fkLdstAddr
    else if m.readUe false a (laneBytes ty) then .error fkDataUe
    else match m.gatherLanes n ty sreg rest with
      | .error e => .error e
      | .ok l => .ok (m.readNat false a (laneBytes ty) :: l)

/-- A vector operation: operands read, one entry pushed, its token due after the latency. -/
def Mach.vecAct (m : Mach) (n w : Nat) : Act :=
  let op := w % 256
  let ty := bits w 32 31
  let fmt := bits w 42 38
  let c := m.core n
  let sreg := (c.d.s (bits w 37 33)).toNat
  let os := ([bits w 13 8, bits w 19 14, bits w 25 20]).take (vecArity op)
  let dst := bits w 30 26
  match vecOperands m n os c.d with
  | .error e => operandTrap e (m.badEntry n (os.map (fun o => (o, (c.d.queue (o % 32)).bytes))) c.d)
  | .ok (es, ps, d) =>
    if es.any (fun e => e.length != (nthD es 0 []).length) then .trap fkQSize
    else
      let dq := d.queue dst
      let n' := min (dq.bytes / laneBytes ty) (laneMax ty)
      let res := if op = 0x18 then (match m.gatherLanes n ty sreg (lanesOf 2 (nthD es 0 [])) with | .ok l => Except.ok (packLanes ty l) | .error e => Except.error e)
        else Except.ok (vecResult op ty fmt sreg n' es)
      match res with
      | .error e => operandTrap e (((lanesOf 2 (nthD es 0 [])).map (fun x => (coreAddr n (gatherOff ty sreg x).toNat, laneBytes ty))).find? (fun x => m.readUe false x.1 x.2))
      | .ok bs =>
        match d.give dst bs.length with
        | .error e => .trap e
        | .ok (i, d) =>
          let bs := if op = 0x20 then slice bs 0 dq.bytes else bs
          let m := os.foldl (fun m o => m.noteRead false (coreAddr n ((c.d.queue (o % 32)).offset (c.d.queue (o % 32)).popped)) (nthD es 0 []).length) m
          let m := if op = 0x18 then (lanesOf 2 (nthD es 0 [])).foldl (fun m x => m.noteRead false (coreAddr n (gatherOff ty sreg x).toNat) (laneBytes ty)) m else m
          .done (m.setD n { d with rel := d.rel ++ ps, vtoks := d.vtoks ++ [⟨dst, i, bs, c.cycle + vecLatency op⟩] })

def vecRow (n op : Nat) (m : Mach) : Mach := m.slotRow n 3 op (fun w m => m.vecAct n w)

/-! ## Matrix slot (R128 to R132) -/

def CoreData.bankAcc (d : CoreData) (b : Nat) : List Word32 := nget (fun _ => []) d.acc b
def CoreData.bankAbft (d : CoreData) (b : Nat) : Abft := nget (fun _ => Abft.clear) d.abft b

/-- The MAC array and the drain path start what they may: a waiting operation moves up, an mma only after every earlier drain of its bank has read it. -/
def CoreData.startUnits (d : CoreData) : CoreData :=
  let d := match d.macRun, d.macWait with
    | none, some x => if x.afterDrains = 0 then { d with macRun := some x, macWait := none } else d
    | _, _ => d
  match d.drainRun, d.drainWait with
  | none, some x => { d with drainRun := some x, drainWait := none }
  | _, _ => d

/-- Drains of a bank that have not read it, and panel products of a bank that have not ended. -/
def CoreData.drainsOn (d : CoreData) (b : Nat) : Nat := b2n (d.drainRun.any (·.bank == b)) + b2n (d.drainWait.any (·.bank == b))
def CoreData.mmasOn (d : CoreData) (b : Nat) : Nat := b2n (d.macRun.any (·.bank == b)) + b2n (d.macWait.any (·.bank == b))

/-- mx.mma issues: both panels are popped or read, and the operation waits in the MAC buffer or runs. -/
def Mach.mmaAct (m : Mach) (n w : Nat) : Act :=
  let d := m.coreD n
  let pair := nget (fun _ => 0) d.mf (bits w 23 22)
  let oa := bits w 13 8
  let ob := bits w 19 14
  let la := panelLen (pairA pair) 8192
  let lb := panelLen (pairB pair) 16384
  if d.macWait.isSome then .trap fkMxBusy
  else if !pairOk pair then .trap fkMxFormat
  else match d.take oa la with
    | .error e => .trap e
    | .ok (ia, d1) => match m.entry n (oa % 32) ia la with
      | .error e => operandTrap e (m.badEntry n [(oa, la)] d)
      | .ok ba => match d1.take ob lb with
        | .error e => .trap e
        | .ok (ib, d2) => match m.entry n (ob % 32) ib lb with
          | .error e => operandTrap e (m.badEntry n [(ob, lb)] d1)
          | .ok bb =>
            let x : Mma := ⟨oa % 32, ia, (d.queue (oa % 32)).pops, !bit oa 5, ob % 32, ib, (d1.queue (ob % 32)).pops, !bit ob 5, b2n (bit w 20), bit w 21, pair, ba, bb, d2.drainsOn (b2n (bit w 20))⟩
            let m := (m.noteRead false (coreAddr n ((d.queue (oa % 32)).offset ia)) la).noteRead false (coreAddr n ((d.queue (ob % 32)).offset ib)) lb
            .done (m.setD n { d2 with macWait := some x }.startUnits)

/-- What the end of the running panel product x makes of a core's data: the bank and its checksum lanes take it, the panels are released, and what waits may start. -/
def CoreData.mmaEnd (x : Mma) (d : CoreData) : CoreData :=
  let r := panelProduct x.pair x.a x.b (if x.clear then [] else d.bankAcc x.bank) (if x.clear then Abft.clear else d.bankAbft x.bank)
  let d := { d with acc := nset (fun _ => []) d.acc x.bank r.1, abft := nset (fun _ => Abft.clear) d.abft x.bank r.2, macRun := none }
  let d := if x.relA then d.setQueue x.qa ((d.queue x.qa).release x.popA) else d
  let d := if x.relB then d.setQueue x.qb ((d.queue x.qb).release x.popB) else d
  let dec (k : Drain) : Drain := if k.bank = x.bank then { k with afterMmas := k.afterMmas - 1 } else k
  { d with drainRun := d.drainRun.map dec, drainWait := d.drainWait.map dec }.startUnits

/-- The running panel product ends. -/
def mmaComplete (n : Nat) (m : Mach) : Mach :=
  match (m.coreD n).macRun with
  | none => m
  | some x => (m.onUnits n (CoreData.mmaEnd x)).pump n

/-- mx.drain issues. -/
def CoreData.issueDrain (d : CoreData) (w : Nat) : Except Nat CoreData :=
  let dst := bits w 28 24
  let q := d.queue dst
  let of := bits w 31 29
  if d.drainWait.isSome then .error fkMxBusy
  else if !q.configured then .error fkQCfg
  else if d.tailClaim dst = 1 then .error fkQClaim
  else if q.bytes < drainRowLen of then .error fkQSize
  else
    let b := b2n (bit w 20)
    .ok { d with drainWait := some ⟨b, dst, of, BitVec.ofNat 32 ((d.s (bits w 12 8)).toNat), 0, false, d.mmasOn b⟩ }.startUnits

/-- The running drain starts once every earlier panel product of its bank has ended, and compares the checksums (R131, R132, R163); `v` says whether the array has failed the test by a fault of its own. -/
def drainStart (n : Nat) (v : Verdict) (m : Mach) : Mach :=
  let d := m.coreD n
  match d.drainRun with
  | none => m
  | some x =>
    if x.started || x.afterMmas != 0 then m
    else if m.flag .CORE_CTL_ABFT n && (v == .fail || abftFails (d.bankAcc x.bank) (d.bankAbft x.bank)) then m.trapCore n fkAbft
    else m.onUnits n (fun d => { d with drainRun := some { x with started := true } })

/-- What a pushed row of the running drain x makes of a core's data. -/
def CoreData.rowPushed (x : Drain) (d : CoreData) : CoreData :=
  let d := d.setQueue x.dst ((d.queue x.dst).push true)
  let dec (k : Mma) : Mma := if k.bank = x.bank then { k with afterDrains := k.afterDrains - 1 } else k
  if x.row = 127 then { d with drainRun := none, macRun := d.macRun.map dec, macWait := d.macWait.map dec }.startUnits
  else { d with drainRun := some { x with row := x.row + 1 } }

/-- The drain pushes its next row, with its token set; after row 127 it has read the bank. -/
def drainRowPush (n : Nat) (m : Mach) : Mach :=
  let d := m.coreD n
  match d.drainRun with
  | none => m
  | some x =>
    let q := d.queue x.dst
    if !x.started || q.free == 0 then m
    else
      let m := m.coreWrite n (q.offset q.pushed) (drainRow x.ofmt x.scale (d.bankAcc x.bank) x.row)
      (m.onUnits n (CoreData.rowPushed x)).pump n

/-! ## Load and store slots (R134) -/

/-- ld.tile issues: one entry is pushed at once; more than one stream. -/
def Mach.loadAct (m : Mach) (n w : Nat) : Act :=
  let d := m.coreD n
  let p := m.corePart n
  let dst := bits w 12 8
  let count := bits w 34 23
  let tile := (d.s (bits w 22 18)).toNat
  let q := d.queue dst
  if count = 0 then .done m
  else if 8 ≤ d.loads.length then .trap fkLsLimit
  else if !q.configured then .trap fkQCfg
  else match m.ldstDesc p ((d.s (bits w 17 13)).toNat % 2 ^ 32) false with
    | none => .trap fkLdstAddr
    | some ws =>
      let t := m.tensorOf p ws
      if q.bytes < t.tileLen then .trap fkQSize
      else if count = 1 then
        if !m.tileOk p t tile then .trap fkLdstAddr
        else match d.give dst t.tileLen with
          | .error e => .trap e
          | .ok (i, d) =>
            let room := decide (d.asked < 64)
            .done (m.setD n { d with loads := d.loads ++ [⟨dst, ws, p, tile + 1, 0, if room then [(i, tile)] else [], if room then [] else [(i, tile)], bits w 36 35, false⟩] })
      else if d.tailClaim dst = 3 then .trap fkQClaim
      else .done (m.setD n { d with loads := d.loads ++ [⟨dst, ws, p, tile, count, [], [], bits w 36 35, true⟩] })

/-- st.tile issues. -/
def Mach.storeAct (m : Mach) (n w : Nat) : Act :=
  let d := m.coreD n
  let p := m.corePart n
  let src := bits w 12 8
  let count := bits w 34 23
  if count = 0 then .done m
  else if 8 ≤ d.stores.length then .trap fkLsLimit
  else if !(d.queue src).configured then .trap fkQCfg
  else match m.ldstDesc p ((d.s (bits w 17 13)).toNat % 2 ^ 32) true with
    | none => .trap fkLdstAddr
    | some ws =>
      if (d.queue src).bytes < (m.tensorOf p ws).tileLen then .trap fkQSize
      else .done (m.setD n { d with stores := d.stores ++ [⟨src, ws, p, (d.s (bits w 22 18)).toNat, count, bits w 38 36, b2n (bit w 35)⟩] })

/-- What a load met in the memory is recorded and counted (R330, R333). -/
def Mach.noteLoad (m : Mach) (n : Nat) (p hint : Nat) (t : Tensor) (k : Nat) : Tile × Mach :=
  let id := m.kernelId n
  let as := t.tileTouch k
  match as.findSome? m.coreInReset with
  | some u => ({ m.loadTile t k with poison := true }, m.isoAbort (m.kernelId n) p 0 u 1)
  | none =>
  let m := (m.mirrorUnits p id as).2
  let e := m.loadTile t k
  let m := (m.readUnits p hint as).coreTouch n as
  let bad := ((as.find? (fun a => (m.byteAt false a).2)).getD t.base) / 32 * 32
  let m := if e.poison then m.postUe p id bad bad else if e.shed then m.meetUe id p bad 1 (stackOf bad) fkShedServe else m
  (e, if e.shed then (match m.kernelOf n with | some c => m.setIssued { c with degraded := true } | none => m) else m)

/-- What a written entry i of queue q makes of a core's data: its token is set, and of the load that asked for it the entries `rest` stay asked; a load without more ends. -/
def CoreData.entryLands (q i : Nat) (poison : Bool) (rest : List (Nat × Nat)) (d : CoreData) : CoreData :=
  let loads := (d.loads.foldl (fun (a : List LoadOp × Bool) x =>
    if x.dst == q && x.asked != [] && !a.2 then (if rest == [] && x.left == 0 && x.queued == [] then (a.1, true) else (a.1 ++ [{ x with asked := rest }], true))
    else (a.1 ++ [x], a.2)) ([], false)).1
  { d.setQueue q ((d.queue q).setToken i poison) with loads := loads }

/-- The oldest requested entry of queue q is written and its token set, with a poison mark where its data is uncorrectable (R136, R146). -/
def loadEntryReady (n q : Nat) (m : Mach) : Mach :=
  let d := m.coreD n
  match d.loads.find? (fun l => l.dst == q && l.asked != []) with
  | none => m
  | some l =>
    match l.asked with
    | [] => m
    | (i, tile) :: rest =>
      let r := m.noteLoad n l.part l.hint (m.tensorOf l.part l.words) tile
      let m := r.2.coreWrite n ((d.queue q).offset i) r.1.bytes
      (m.onUnits n (CoreData.entryLands q i r.1.poison rest)).pump n

/-- The oldest store whose entries have all been written completes: its counter falls. -/
def storeComplete (n : Nat) (m : Mach) : Mach :=
  let d := m.coreD n
  match d.stores with
  | [] => m
  | s :: rest => if s.left = 0 then (m.onUnits n (fun d => { d with stores := rest })).pump n else m

/-! ## Sync slot (R138) -/

/-- The first k entries of a queue are present and ready. -/
def CQueue.firstReady (q : CQueue) (k : Nat) : Bool := decide (k ≤ q.occ) && (List.range k).all (fun i => q.readyAt (q.popped + i))

/-- Load, store, MAC, drain, vector and fill units are idle. -/
def CoreData.unitsIdle (d : CoreData) : Bool :=
  d.loads.isEmpty && d.stores.isEmpty && d.macRun.isNone && d.macWait.isNone && d.drainRun.isNone && d.drainWait.isNone && d.vtoks.isEmpty && d.ifill.isEmpty

def wX (w : Nat) : Nat := bits w 12 8
def wN (w : Nat) : Nat := bits w 23 13

/-- A sync operation whose condition reads the core alone. -/
def syncRow (n op : Nat) (cond : Core → Nat → Bool) (m : Mach) : Mach :=
  m.slotRow n 1 op (fun w m => if cond (m.core n) w then .done m else .wait)

/-- sy.bar: the core reaches the barrier and waits there for its release. -/
def Mach.barAct (m : Mach) (n w : Nat) : Act :=
  let c := m.core n
  if c.released then .done (m.setCore n { c with barrier := none, released := false })
  else .hold ((m.setCore n { c with barrier := some (wX w % 16) }).stallCycle n)

/-- The barrier of group g of partition p releases once every core has reached it with one number. -/
def barrierRelease (p g : Nat) (m : Mach) : Mach :=
  let cs := (m.groupPhys p g).filterMap id
  match cs with
  | [] => m
  | c :: _ =>
    let b := (m.core c).barrier
    if b.isSome && cs.all (fun k => (m.core k).barrier == b && !(m.core k).released) then
      cs.foldl (fun m k => m.setCore k { m.core k with released := true }) m
    else m

/-- sy.swpt: with a switch requested the core idles once its units do (R144). -/
def Mach.swptAct (m : Mach) (n : Nat) : Act :=
  let c := m.core n
  if m.switchWanted (m.corePart n) then
    if c.d.unitsIdle && c.d.amo.isNone then .hold (m.setCore n { c with atSwitch := true }) else .wait
  else .done (m.setCore n { c with wdogFrom := c.cycle })

/-- Progress of a group: the sum of its progress registers modulo 2⁴⁸ (R140). -/
def Mach.groupProgress (m : Mach) (c : Issued) : Nat := ((m.kernelCores c).foldl (fun s k => s + (m.coreD k).prog) 0) % 2 ^ 48

/-- The KERNEL's operation ends with a status. -/
def Mach.kernelEnds (m : Mach) (c : Issued) (status : Nat) : Mach :=
  let st := if status = stOk then (if c.extra = [stUe] then stUe else if c.degraded then stDegraded else stOk) else status
  m.setIssued { c with result := some st, progress := m.groupProgress c }

/-- sy.end: the core's part ends; the last core of the group ends the KERNEL (R140). -/
def Mach.endAct (m : Mach) (n w : Nat) : Act :=
  let c := m.core n
  if c.d.unitsIdle && c.d.amo.isNone then
    let d := { c.d with prog := (c.d.s (wX w)).toNat % 2 ^ 48 }
    let m := (m.setCore n { c with run := false, ended := true, fetched := false, slot := 0, d := d }).incMod .CORE_ISSUED_COUNT 1 n
    match m.kernelOf n with
    | none => .hold m
    | some k => .hold (if (m.kernelCores k).all (fun x => (m.core x).ended) then m.kernelEnds k stOk else m)
  else .wait

/-! ## Kernels (R139 to R143) -/

/-- A KERNEL starts every core of its group (R139); one whose group has lost a core since its issue does not (R149). -/
def Mach.kernelStart (m : Mach) (c : Issued) : Mach :=
  if (m.groupPhys c.part (c.queue - 4)).any Option.isNone then m.setIssued { c with result := some stCoreAbsent }
  else (m.kernelCores c).foldl (fun m n =>
    let d := { CoreData.fresh with
      pc := c.cmd.p1 % 4096
      sregs := nset (fun _ => 0) (nset (fun _ => 0) (nset (fun _ => 0) [] 0 (BitVec.ofNat 64 c.cmd.p2)) 1 (BitVec.ofNat 64 c.cmd.p3)) 2 (BitVec.ofNat 64 c.cmd.p4)
      ifill := (m.coreD n).ifill }
    (m.setCore n { Core.idle with run := true, d := d, before := d, kernel := some c.id }).wr .CORE_STAT_TRAPPED 0 n) m

/-- A core stops with its group: what it had in flight is dropped. -/
def Mach.stopCore (m : Mach) (n : Nat) : Mach :=
  let c := m.core n
  m.setCore n { c with run := false, fetched := false, slot := 0, barrier := none, released := false, atSwitch := false, d := c.d.stopped }

/-- The group of a trapped core stops and its KERNEL ends with the earliest trap's status (R141). -/
def groupStop (p g : Nat) (m : Mach) : Mach :=
  match m.groupStops.find? (fun s => (m.issuedOf s.cmdId).any (fun c => c.part == p && c.queue == 4 + g)) with
  | none => m
  | some s =>
    match m.issuedOf s.cmdId with
    | none => m
    | some c =>
      let m := (m.kernelCores c).foldl Mach.stopCore { m with groupStops := m.groupStops.filter (fun x => x.cmdId != s.cmdId) }
      m.kernelEnds ((m.issuedOf c.id).getD c) s.status

/-- The watchdog of a running core reaches its limit (R143). -/
def watchdogExpiry (n : Nat) (m : Mach) : Mach :=
  let lim := m.rd .CORE_WDOG_LIMIT n
  if (m.core n).run && lim != 0 && !(m.core n).atSwitch then (m.toCycle n ((m.core n).wdogFrom + lim * 65536)).trapCore n fkWdog else m

/-! ## Retirement (R149) -/

/-- The retirement of a core takes effect: the lowest spare of its die takes its logical number. -/
def Mach.retireNow (m : Mach) (n : Nat) : Mach :=
  let k := m.map n
  let spare := (List.range 96).find? (fun i => (m.map (n / 96 * 96 + i)).st == 1)
  let m := m.setMap n ⟨2, 0xFF⟩
  match spare with
  | some i => m.setMap (n / 96 * 96 + i) ⟨0, k.logical⟩
  | none => m

/-- CORE[n].MAP.RETIRE written 1. A spare, which serves no logical core, is retired at once. -/
def coreRetire (n : Nat) (m : Mach) : Mach :=
  if (m.map n).st = 0 then
    if (m.groupOf n).isNone then (m.setMap n { m.map n with st := 3 }).retireNow n else m.setMap n { m.map n with st := 3 }
  else if (m.map n).st = 1 then m.setMap n ⟨2, 0xFF⟩
  else m

end Sys2Proof.Machine
end

