-- ==== Sys2Proof/Machine/Sessions.lean ====
section
/-! DEFINITION. The session table, the work-list builder, EMIT and the deadline monitor (file 10). -/
namespace Sys2Proof.Machine

/-- An 8-byte-word image of a session entry, as SEQTAB shows it (R260). -/
def sessionBytes (e : SEntry) : Bytes :=
  toBytes 4 e.id ++ toBytes 1 (e.part + e.state * 16 + b2n e.pend * 128) ++ toBytes 1 (e.shed + e.bucket * 16) ++ toBytes 1 e.prio ++
    toBytes 1 (b2n e.listed + 2 * b2n e.wdr + 4 * b2n e.poolHeld) ++ toBytes 4 e.len ++ toBytes 6 e.root ++ toBytes 6 e.deadline ++
    toBytes 4 e.outseq ++ toBytes 4 e.served ++ toBytes 2 e.shedSteps ++ toBytes 2 e.noadv ++ toBytes 2 e.lateSteps ++ toBytes 2 e.wdrSteps ++
    toBytes 8 e.apptag ++ toBytes 6 e.lastEnd ++ toBytes 10 0

/-- A session-table index lies in the partition's range. -/
def Mach.inRange (m : Mach) (p i : Nat) : Bool :=
  decide (m.rd .SEC_PART_RANGE_FIRST p ≤ i) && decide (i < m.rd .SEC_PART_RANGE_FIRST p + m.rd .SEC_PART_RANGE_COUNT p)

/-- A failed page pop holds the session: active becomes held with POOLHELD, held takes POOLHELD, others keep their state (R251). -/
def Mach.poolHold (m : Mach) (i : Nat) : Mach :=
  let e := m.sess i
  if e.state = 2 then m.setSess i { e with state := 3, poolHeld := true }
  else if e.state = 3 then m.setSess i { e with poolHeld := true }
  else m

/-! ## Items of SEQ (R263, R264) -/

def seqOp (c : Cmd) : Nat := bits c.p1 3 0

/-- Check 4 of R84 for SEQ: reserved bits and OP (R263), and PBASE of BUILD (R265). -/
def seqFieldsOk (c : Cmd) : Bool :=
  let op := seqOp c
  bits c.p1 63 14 == 0 && bits c.p1 7 4 == 0 && decide (1 ≤ op) && decide (op ≤ 0xC) &&
    (if op = 1 then decide (bits c.p1 13 8 ≤ 47) && c.p2 == 0 && c.p3 == 0 && c.p4 == 0
     else bits c.p1 13 8 == 0 && localWord c.p2 && localWord c.p4 && decide (c.p3 < 2 ^ 24))

/-- Bytes of the list or array that P2 names. -/
def seqListLen (c : Cmd) : Nat := if seqOp c = 1 then 0 else if seqOp c = 3 then c.p3 * 64 else c.p3 * 16

/-- States an operation is allowed from (R264). -/
def seqAllowed (op : Nat) (e : SEntry) : Bool :=
  match op with
  | 3 => e.state == 0
  | 4 => e.state == 1 || e.state == 4
  | 5 => e.state == 2
  | 6 => e.state == 3
  | 7 => e.state == 2 || e.state == 3
  | 8 => decide (1 ≤ e.state) && decide (e.state ≤ 4)
  | 9 => e.state == 5 && !e.listed
  | _ => e.state != 0

/-- Reserved fields of an item are zero (R263, R264). -/
def seqItemReservedOk (op : Nat) (b : Bytes) : Bool :=
  if op = 3 then
    field b 4 1 % 128 == 0 && field b 5 1 == 0 && field b 7 1 == 0 && field b 24 16 == 0 && field b 48 6 == 0 && field b 56 8 == 0
  else
    field b 3 5 == 0 &&
      (match op with
       | 0xA => decide (field b 2 1 < 2) && field b 8 8 == 0
       | 0xB => decide (field b 2 1 < 8) && field b 8 8 == 0
       | 0xC => decide (field b 8 8 < 2 ^ 48)
       | _ => field b 2 1 == 0 && field b 8 8 == 0)

/-- The entry after an operation on it (R264). -/
def seqEffect (p op : Nat) (b : Bytes) (e : SEntry) : SEntry :=
  match op with
  | 3 => { SEntry.free with
            id := field b 0 4, part := p, state := 1, pend := bit (field b 4 1) 7, prio := field b 6 1, len := field b 8 4, root := field b 12 6,
            deadline := field b 18 6, apptag := field b 40 8 }
  | 4 => { e with state := 2 }
  | 5 => { e with state := 3, poolHeld := false }
  | 6 => { e with state := 2, poolHeld := false }
  | 7 => { e with state := 4, poolHeld := false }
  | 8 => { e with state := 5 }
  | 9 => SEntry.free
  | 0xA => { e with pend := bit (field b 2 1) 0 }
  | 0xB => { e with shed := field b 2 1 % 8 }
  | _ => { e with deadline := field b 8 8 % 2 ^ 48, prio := field b 2 1 }

/-- Session that an item names. -/
def seqItemSession (op : Nat) (b : Bytes) : Nat := if op = 3 then field b 54 2 else field b 0 2

/-- One item of a SEQ command: its status, and the table after it. -/
def Mach.seqItem (m : Mach) (p op : Nat) (b : Bytes) : Mach × Nat :=
  let i := seqItemSession op b
  let e := m.sess i
  if !m.inRange p i then (m, stItemSession)
  else if !seqAllowed op e then (m, stSessionState)
  else if !seqItemReservedOk op b then (m, stItemFormat)
  else (m.setSess i (seqEffect p op b e), stOk)

/-- Items k, k + 1, … of a SEQ command's list at `a`, act in item order; an unreadable item reports ST_POISON and changes nothing (R330), and so does one whose session entry is
unreadable (log entry 133). -/
def seqItems (p op id a : Nat) : Nat → Nat → Mach → Mach × List Nat
  | 0, _, m => (m, [])
  | n + 1, k, m =>
    let size := if op = 3 then 64 else 16
    let at' := a + k * size
    let m := (m.mirrorAll false p (some id) at' size).2
    if m.readUe false at' size then
      let r := seqItems p op id a n (k + 1) ((m.noteRead false at' size).postUe p (some id) (m.ueAt false at' size) at')
      (r.1, stPoison :: r.2)
    else
      let b := m.read false at' size
      let t := (m.noteRead false at' size).readSess (seqItemSession op b)
      let s := if t.2 then (t.1, stPoison) else t.1.seqItem p op b
      let r := seqItems p op id a n (k + 1) s.1
      (r.1, s.2 :: r.2)

/-! ## The deadline monitor (R272 to R276) -/

/-- Action entry a fires (R275): a raise is recorded, or a register is switched; no switch fires in pair mode (R306). -/
def Mach.fireOne (m : Mach) (p trig a : Nat) : Mach :=
  let mon := m.mon p
  if !m.flag .SEQR_ACT_ENABLE p a || (m.rd .SEQR_ACT_TRIG p a) &&& trig == 0 || bit mon.fired a then m
  else if m.rd .SEQR_ACT_KIND p a = 0 then
    m.setMon p { mon with
      fired := setBit mon.fired a
      raises := mon.raises ++ [⟨m.rd .SEQR_ACT_BMASK p a, m.rd .SEQR_ACT_PMIN p a, m.rd .SEQR_ACT_SHEDADD p a⟩] }
  else if m.flag .LINK_PAIR_ENABLE then m
  else
    let m := (m.setMon p { mon with fired := setBit mon.fired a }).wr .SEQR_STEP_ALT 1 p
    m.wr .SEQR_PARAM_VALUE (m.rd .SEQR_ACTVAL_VALUE p a) p (m.rd .SEQR_ACT_AREG p a)

/-- Action entries fire in entry order: trig 1 on a warning, 2 on a miss. -/
def Mach.fireActions (m : Mach) (p trig : Nat) : Mach := (List.range 4).foldl (fun m a => m.fireOne p trig a) m

/-- A miss is due: a step is open, its non-zero deadline has passed, and it has not missed yet (R274). -/
def Mach.missDue (m : Mach) (p : Nat) : Bool :=
  m.flag .SEQR_STEP_OPEN p && m.rd .SEQR_STEP_DEADLINE p != 0 && m.passed (m.rd .SEQR_STEP_DEADLINE p) && !(m.mon p).missed

/-- A miss (R274): counted, its event raised, its entries fired. -/
def Mach.miss (m : Mach) (p : Nat) : Mach :=
  let m := m.setMon p { m.mon p with missed := true }
  let m := (m.inc .SEQR_MON_MISSCOUNT 1 p).raiseEvent p (m.rd .SEQR_MON_MISSEV p)
  m.fireActions p 2

/-- A checkpoint is evaluated at the completion of a CKPT command with a deadline, while a step is open (R272, R273); one whose deadline lies before the step's start has no time planned, and warns. -/
def Mach.checkpoint (m : Mach) (p deadline tag : Nat) : Mach :=
  if !m.flag .SEQR_STEP_OPEN p || deadline == 0 then m
  else
    let e := m.tick48
    let l := if m.passed deadline then (e + 2 ^ 48 - deadline) % 2 ^ 48 else 0
    let m := (m.wr .SEQR_MON_LASTCK (min l 0xFFFFFFFF) p).wr .SEQR_MON_LASTCKTAG tag p
    let ewf := m.rd .SEQR_MON_EWF p
    let start := m.rd .SEQR_STEP_START p
    let planned := (deadline + 2 ^ 48 - start) % 2 ^ 48
    if ewf != 0 && (!reached48 deadline start || decide (ewf * planned < 256 * l)) && !(m.mon p).warned then
      let m := m.setMon p { m.mon p with warned := true, warnDue := true }
      (m.inc .SEQR_MON_WARNCOUNT 1 p).raiseEvent p (m.rd .SEQR_MON_WARNEV p)
    else m

/-! ## BUILD (R265 to R268) -/

/-- Bucket of a history length: the first bound above it, else 15. -/
def Mach.bucketOf (m : Mach) (p len : Nat) : Nat :=
  ((List.range 15).find? (fun b => decide (len < m.rd .SEQR_BOUND_LEN p b))).getD 15

/-- Levels added by every raise that matches a bucket and priority. -/
def raiseFor (rs : List Raise) (b prio : Nat) : Nat :=
  (rs.filter (fun r => bit r.bmask b && decide (r.pmin ≤ prio))).foldl (fun s r => s + r.add) 0

/-- Some raise matches. -/
def raiseHits (rs : List Raise) (b prio : Nat) : Bool := rs.any (fun r => bit r.bmask b && decide (r.pmin ≤ prio))

/-- The raises that this BUILD applies (R276); in pair mode those of every shed entry in the union of both twins' ACTMASK (R306). -/
def Mach.buildRaises (m : Mach) (p : Nat) : List Raise :=
  let mon := m.mon p
  if m.flag .LINK_PAIR_ENABLE then
    let mask := mon.fired ||| (match mon.twin with | some t => t.1 | none => 0)
    ((List.range 4).filter (fun a => bit mask a && m.rd .SEQR_ACT_KIND p a == 0)).map
      (fun a => ⟨m.rd .SEQR_ACT_BMASK p a, m.rd .SEQR_ACT_PMIN p a, m.rd .SEQR_ACT_SHEDADD p a⟩)
  else mon.raises

/-- Whether this BUILD lowers shed levels (R276, R306). -/
def Mach.buildDecay (m : Mach) (p : Nat) : Bool :=
  let mon := m.mon p
  let own := !mon.warned && !mon.missed
  m.flag .SEQR_MON_DECAY p && mon.hadStep && own &&
    (!m.flag .LINK_PAIR_ENABLE || (match mon.twin with | some t => !t.2.1 && !t.2.2 | none => true))

/-- Every entry of a partition's range with LISTED = 1: those of the step's list in its order, then the others by index. -/
def Mach.listedIn (m : Mach) (p : Nat) : List Nat :=
  let own := ((m.mon p).list.map (·.1)).filter (fun i => m.inRange p i && (m.sess i).listed)
  own ++ (m.seqtab.filter (fun e => m.inRange p e.1 && e.2.listed && !own.contains e.1)).map (·.1)

/-- A previous step without an EMIT is closed: markers with ST_DEADLINE, LISTED and WDR cleared in every entry of the range, ABANDON counted (R268). -/
def Mach.abandonStep (m : Mach) (p : Nat) : Mach :=
  if m.flag .SEQR_STEP_OPEN p then
    let l := m.listedIn p
    let m := l.foldl (fun m i => m.withdraw p stDeadline i) m
    let m := l.foldl (fun m i => m.setSess i { m.sess i with listed := false, wdr := false }) m
    let m := m.setMon p { m.mon p with missed := true, list := [] }
    (m.inc .SEQR_STEP_ABANDON 1 p).wr .SEQR_STEP_OPEN 0 p
  else m

/-- One entry of the scan: the bucket it is listed in, and the entry after it (R265). -/
def Mach.scanEntry (m : Mach) (p : Nat) (rs : List Raise) (decay : Bool) (e : SEntry) : Option (Nat × SEntry) :=
  if e.pend && (e.state == 2 || e.state == 3) then
    if e.state = 3 then some (16, { e with listed := true })
    else
      let b := m.bucketOf p e.len
      let shed := if raiseHits rs b e.prio then min 7 (e.shed + raiseFor rs b e.prio) else if decay && decide (0 < e.shed) then e.shed - 1 else e.shed
      some (b, { e with bucket := b, shed := shed, listed := true })
  else none

/-- The 16 bytes of a work-list entry (R266). -/
def listEntry (i b : Nat) (e : SEntry) (overdue : Bool) : Bytes :=
  toBytes 2 i ++ toBytes 1 b ++ toBytes 1 (e.shed + 8 * b2n overdue) ++ toBytes 4 e.len ++ toBytes 6 e.root ++ toBytes 1 e.prio ++ toBytes 1 0

/-- The sessions a BUILD lists, by index, with their buckets. -/
def Mach.scanList (m : Mach) (p : Nat) (rs : List Raise) (decay : Bool) : List (Nat × Nat × SEntry) :=
  (List.range (m.rd .SEC_PART_RANGE_COUNT p)).filterMap (fun k =>
    let i := m.rd .SEC_PART_RANGE_FIRST p + k
    (m.scanEntry p rs decay (m.sess i)).map (fun r => (i, r.1, r.2)))

/-- The work-list area lies in the stacks, 32 B aligned, in an allocation with the write right (R266). -/
def Mach.listAreaOk (m : Mach) (p : Nat) : Bool :=
  let base := m.rd .SEQR_WL_BASE p
  base % 32 == 0 && m.inStacks base && m.allowed p true base (17 * m.rd .SEC_PART_RANGE_COUNT p * 16)

/-- Sessions of one bucket, in ascending index order. -/
def inBucket (l : List (Nat × Nat × SEntry)) (b : Nat) : List (Nat × Nat × SEntry) := l.filter (fun s => s.2.1 == b)

/-- BUILD after its checks, issued at tick `at'`: the step opened, the table scanned, the list and the counts written. Answers the number listed. -/
def Mach.build (m : Mach) (p deadline pbase at' : Nat) : Mach × Nat :=
  let m := (List.range (m.rd .SEC_PART_RANGE_COUNT p)).foldl (fun m k => (m.readSess (m.rd .SEC_PART_RANGE_FIRST p + k)).1) (m.abandonStep p)
  let rs := m.buildRaises p
  let decay := m.buildDecay p
  let m := m.incMod .SEQR_STEP_NUM 1 p
  let m := (((m.wr .SEQR_STEP_START (at' % 2 ^ 48) p).wr .SEQR_STEP_DEADLINE deadline p).wr .SEQR_STEP_OPEN 1 p).wr .SEQR_STEP_ALT 0 p
  let l := m.scanList p rs decay
  let cnt := m.rd .SEC_PART_RANGE_COUNT p
  let base := m.rd .SEQR_WL_BASE p
  let m := l.foldl (fun m s => m.setSess s.1 s.2.2) m
  let m := (List.range 17).foldl (fun m b =>
    let es := inBucket l b
    let m := (List.range es.length).foldl (fun m k =>
      match es[k]? with
      | some s => (m.write p false (base + (b * cnt + k) * 16) (listEntry s.1 b s.2.2 (s.2.2.deadline != 0 && reached48 at' s.2.2.deadline))).1
      | none => m) m
    m.wr .SEQR_PARAM_VALUE es.length p (pbase + b)) m
  let order := ((List.range 17).map (fun b => (inBucket l b).map (fun s => (s.1, b, s.2.2.shed)))).flatten
  let old := m.mon p
  let carry := if old.warnDue then some old.fired else old.carry
  (m.setMon p { Mon.fresh with hadStep := true, list := order, ooe := !m.flag .TIME_ENV_IN p, carry := carry }, order.length)

/-! ## EMIT (R269, R270) -/

/-- What EMIT makes of one listed session: the record, if any, the entry, the item status. `shed` is the level in force for the step (R266, R271; log entry 107);
`slot` is the 16-byte result slot, none where there is none or it could not be read. -/
def Mach.emitOne (m : Mach) (p session bucket shed : Nat) (slot : Option Bytes) : Option OutRec × SEntry × Nat :=
  let e := m.sess session
  let late := m.stepLate p
  let step := m.rd .SEQR_STEP_NUM p % 2 ^ 32
  let flags := m.recordFlags p late e
  let bump (x : SEntry) : SEntry := { x with
    outseq := satAdd 32 x.outseq 1, lastEnd := m.tick48, listed := false, wdr := false
    lateSteps := if late then satAdd 16 x.lateSteps 1 else x.lateSteps }
  let kind := match slot with | some b => field b 4 1 | none => 0
  if e.wdr then (none, { e with listed := false, wdr := false }, stWithdrawn)
  else if e.state = 2 ∧ bucket < 16 ∧ (kind = 1 ∨ kind = 2) then
    let b := slot.getD []
    let f5 := field b 5 1
    let e1 := { e with
      len := (e.len + b2n (bit f5 1)) % 2 ^ 32, pend := bit f5 0, served := satAdd 32 e.served 1
      shedSteps := if 0 < shed then satAdd 16 e.shedSteps 1 else e.shedSteps }
    let a := bump e1
    (some ⟨session, outRecord e step kind flags shed stOk (field b 0 4) e1.len m.tick48 (slice b 6 10), a⟩, a, stOk)
  else if e.state = 3 then
    let a := bump { e with noadv := satAdd 16 e.noadv 1 }
    (some ⟨session, outRecord e step 3 flags shed (if e.poolHeld then stPoolEmpty else stOk) 0 e.len m.tick48 [], a⟩, a, stOk)
  else
    let a := bump { e with wdrSteps := satAdd 16 e.wdrSteps 1 }
    (some ⟨session, outRecord e step 4 flags shed stWithdrawn 0 e.len m.tick48 [], a⟩, a, stWithdrawn)

/-- EMIT over the list: k counts the bucket sessions passed, which is the slot index (R269). The pair protocol keeps the entries for the release. -/
def emitAll (p a slots id : Nat) (apply : Bool) : List (Nat × Nat × Nat) → Nat → Mach → Mach × List OutRec × List Nat
  | [], _, m => (m, [], [])
  | (session, bucket, shed) :: rest, k, m =>
    let here := decide (bucket < 16) && decide (k < slots)
    let at' := a + k * 16
    let m := if here then (m.mirrorAll false p (some id) at' 16).2 else m
    let ue := here && m.readUe false at' 16
    let m := if here then m.noteRead false at' 16 else m
    let slot := if here && !ue then some (m.read false at' 16) else none
    let m := if ue then m.postUe p (some id) (m.ueAt false at' 16) session else m
    let m := (m.readSess session).1
    let r := m.emitOne p session bucket shed slot
    let m := if apply then m.setSess session r.2.1 else m
    let t := emitAll p a slots id apply rest (if bucket < 16 then k + 1 else k) m
    (t.1, r.1.toList ++ t.2.1, r.2.2 :: t.2.2)

/-- The step is closed (R270). -/
def Mach.closeStep (m : Mach) (p : Nat) : Mach :=
  let mon := m.mon p
  let m := mon.list.foldl (fun m s => m.setSess s.1 { m.sess s.1 with listed := false, wdr := false }) m
  (m.setMon p { mon with list := [] }).wr .SEQR_STEP_OPEN 0 p

/-- The interference ratio, formed at EMIT's completion (R277). -/
def Mach.interference (m : Mach) (p : Nat) : Mach :=
  let ref := m.rd .SEQR_IR_REF p
  let dur := (m.tick48 + 2 ^ 48 - m.rd .SEQR_STEP_START p) % 2 ^ 48
  let r := if ref = 0 then 0 else min 0xFFFF (dur * 256 / ref)
  (m.wr .SEQR_IR_RATIO r p).wr .SEQR_IR_MAX (max r (m.rd .SEQR_IR_MAX p)) p

/-- A record as the digest takes it: END, LATE and OOE zero (R303). -/
def digestBytes (r : OutRec) : Bytes :=
  let f := field r.plain 13 1
  putBytes (putBytes r.plain 13 (toBytes 1 (clearBit (clearBit f 1) 3))) 24 (toBytes 6 0)

/-- The block is in pair mode and compares steps (R304). -/
def Mach.paired (m : Mach) : Bool := m.flag .LINK_PAIR_ENABLE && (m.rd .LINK_PAIR_STATE == 1 || m.rd .LINK_PAIR_STATE == 2)

/-- EMIT of pair mode stages its records at PAIR.STAGE: 48 plaintext bytes in 64-byte places, after those of other EMITs that wait (R304; log entry 127). -/
def Mach.stage (m : Mach) (id p : Nat) (recs : List OutRec) : Mach :=
  let k := (m.pair.waits.map (fun w => w.staged.length)).sum
  let m := (recs.zipIdx).foldl (fun m r => (m.write p false (m.rd .LINK_PAIR_STAGE + (k + r.2) * 64) (slice r.1.plain 0 64)).1) m
  { m with pair := { m.pair with waits := m.pair.waits ++ [⟨id, p, recs, none, 0⟩] } }

/-- Operand checks of SEQ after R84's own (R263, R266): the status of the first that fails. -/
def Mach.seqCheck (m : Mach) (p : Nat) (c : Cmd) : Option Nat :=
  let inPlace (a : Nat) : Bool := m.inStacks a || m.region a == 2
  if seqOp c = 1 then (if m.listAreaOk p then none else some stDescRights)
  else if c.p3 != 0 && !(inPlace c.p2 && m.granted p false c.p2 (seqListLen c)) then some stDescRights
  else if c.p4 != 0 && !(m.allowed p true c.p4 (if seqOp c = 2 then (m.mon p).list.length else c.p3)) then some stDescRights
  else none

/-- An EMIT that serves its rings ends: the records are formed, then sent in list order, each LATE by this tick; the step closes (R270). -/
def Mach.emitNow (m : Mach) (c : Issued) : Mach × Issued :=
  if c.cmd.opcode = 9 ∧ c.extra = [2] then
    let p := c.part
    let r := emitAll p c.cmd.p2 c.cmd.p3 c.id true (m.mon p).list 0 m
    let m := (r.2.1.foldl (fun m rec => m.sendRecord p rec) r.1).closeStep p
    (m, { (m.issuedOf c.id).getD c with
      result := some (itemsStatus r.2.2), progress := itemsDone r.2.2, itemSt := r.2.2.map some, items := c.cmd.p4, extra := [1] })
  else (m, c)

/-- A SEQ command starts: its items act at its issue instant (R263); EMIT's records are formed as it ends. -/
def Mach.seqStart (m : Mach) (c : Issued) : Mach :=
  let p := c.part
  match seqOp c.cmd with
  | 1 =>
    let r := m.build p c.cmd.deadline (bits c.cmd.p1 13 8) c.tick
    r.1.setIssued { c with result := some (if r.2 = 0 then stEmpty else stOk), progress := r.2 }
  | 2 =>
    if !m.flag .SEQR_STEP_OPEN p then m.setIssued { c with result := some stEmpty, items := c.cmd.p4 }
    else if m.paired then
      let r := emitAll p c.cmd.p2 c.cmd.p3 c.id false (m.mon p).list 0 m
      let m := r.1.stage c.id p r.2.1
      m.setIssued { (m.issuedOf c.id).getD c with itemSt := r.2.2.map some, items := c.cmd.p4, extra := [1] }
    else m.setIssued { c with result := some stOk, extra := [2] }
  | op =>
    let r := seqItems p op c.id c.cmd.p2 c.cmd.p3 0 m
    r.1.setIssued { (r.1.issuedOf c.id).getD c with result := some (itemsStatus r.2), progress := itemsDone r.2, itemSt := r.2.map some, items := c.cmd.p4 }

end Sys2Proof.Machine
end

