-- ==== Sys2Proof/Machine/Links.lean ====
section
/-! DEFINITION. Vyter links (file 11): frames and their protection, routes and relay, remote operations at sender and destination, transfers and seals (R71 to R75), ports and their failures. -/
namespace Sys2Proof

open Sys2Proof.Machine

/-- The 48 header bytes of a frame (R287). -/
def Frame.header (f : Frame) : Bytes :=
  toBytes 1 f.typ ++ toBytes 1 f.env ++ toBytes 2 (f.srcBlock + f.srcPart * 1024) ++ toBytes 2 (f.dstBlock + f.dstPart * 1024) ++
    toBytes 1 (f.hidx + b2n f.last * 16 + b2n f.bad * 32) ++ toBytes 1 f.keyslot ++ toBytes 8 f.route ++ toBytes 8 f.ret ++ toBytes 6 f.addr ++
    toBytes 2 f.xfer ++ toBytes 2 f.len ++ toBytes 4 f.rid ++ toBytes 1 f.status ++ toBytes 1 0 ++ toBytes 8 f.fcnt

/-- Envelope causes that a frame carries (R296): none when its OOE bit is clear. -/
def Frame.causes (f : Frame) : Nat := if bit f.env 0 then causeNeighbour ||| f.env / 2 else 0

/-- A frame carries a command's own data: a WRITE or a SEAL (R94, R95). -/
def Frame.carries (f : Frame) : Bool := f.typ == 0x10 || f.typ == 0x11

/-- The piece of a write that one WRITE frame is. -/
def Frame.piece (f : Frame) (bad : Bool) (causes : Nat) : Frag :=
  ⟨f.srcBlock, f.dstPart, f.xfer, f.addr, f.addr + 32 * f.len, f.keyslot, f.fcnt, f.last, bad, causes⟩

end Sys2Proof

namespace Sys2Proof.Machine

def Mach.portUp (m : Mach) (n : Nat) : Bool := decide (n < 16) && m.rd .LINK_STATE_STATE n == 2

/-! ## Protection (R297) -/

/-- Nonce of a frame: SRC in bits [95:80], FCNT in bits [63:0]. -/
def frameNonce (f : Frame) : Nat := (f.srcBlock + f.srcPart * 1024) * 2 ^ 80 + f.fcnt
def frameAad (f : Frame) : Bytes := ({ f with hidx := 0, ret := 0 } : Frame).header

/-- The link slot bound to a local partition, a peer block and a peer partition (R366, R367). -/
def Mach.slotFor (m : Mach) (p peer pp : Nat) : Option Nat :=
  ((List.range 255).map (· + 1)).find? (fun k => m.flag .SEC_KEYST_VALID k && m.rd .SEC_KEYST_PART k == p && m.rd .SEC_KEYST_PEER k == peer &&
    m.rd .SEC_KEYST_PPART k == pp)

/-- A frame with its data encrypted and its tag, and the slot's counter advanced; under slot 0 it goes without protection. -/
def Mach.protect (m : Mach) (f : Frame) : Mach × Frame :=
  if f.keyslot = 0 then (m, f)
  else
    let n := nget (fun _ => 0) m.fcnt f.keyslot
    let f := { f with fcnt := n }
    let r := Config.gcmSeal (m.key 3 f.keyslot) (frameNonce f) (frameAad f) f.data
    ({ m with fcnt := nset (fun _ => 0) m.fcnt f.keyslot ((n + 1) % 2 ^ 64) }, { f with data := r.1, tag := r.2 })

/-- The data of a frame that its tag admits; slot 0 only in test mode (R297, R363). -/
def Mach.openFrame (m : Mach) (f : Frame) : Option Bytes :=
  if f.keyslot = 0 then (if m.flag .RST_MODE_TEST then some f.data else none)
  else if m.flag .SEC_KEYST_VALID f.keyslot then
    Config.gcmOpen (m.key 3 f.keyslot) (frameNonce f) (frameAad f) f.data f.tag
  else none

/-! ## Sending -/

/-- A fault of a link port, in partition 0's stream. -/
def Mach.postLink (m : Mach) (n kind : Nat) : Mach := m.post ⟨0, 0, 0, 4, n, kind⟩

/-- FK_LINK_ROUTE at most once per millisecond per port (R291). -/
def Mach.noteRoute (m : Mach) (n : Nat) : Mach :=
  match m.routeNoted.find? (fun e => e.1 == n) with
  | some e => if m.tick < e.2 + 10000 then m else { m.postLink n fkLinkRoute with routeNoted := put natBefore n m.tick m.routeNoted }
  | none => { m.postLink n fkLinkRoute with routeNoted := put natBefore n m.tick m.routeNoted }

/-- The command of a WRITE or SEAL frame that was discarded at its port ends with what had left (log entry 15). -/
def Mach.frameDropped (m : Mach) (f : Frame) (owner : Option Nat) : Mach :=
  match (if f.carries then owner.bind m.issuedOf else none) with
  | some c => if c.result.isNone then m.setIssued { c with result := some stLinkDown, left := 0 } else m
  | none => m

/-- A frame for a port: queued while the port is UP, else discarded into its DISCARD.DOWN and recorded (R291). -/
def Mach.sendOn (m : Mach) (port cls : Nat) (f : Frame) (owner : Option Nat) : Mach :=
  if m.portUp port then m.enqueue port cls f owner else ((m.inc .LINK_DISCARD_DOWN 1 port).noteRoute port).frameDropped f owner

/-- A routed frame of the block's own is sent on PORT[0] with HIDX 1 and RET 0 (R290); it is protected when it leaves. -/
def Mach.sendRouted (m : Mach) (f : Frame) (owner : Option Nat) : Mach :=
  m.sendOn (routePort f.route 0) 5 { f with hidx := 1, ret := 0, srcBlock := m.rd .GLOBAL_BLOCK_NUM } owner

/-- The hop entries of RET (R287). -/
def retHop (ret k : Nat) : Nat := bits ret (4 * k + 3) (4 * k)

/-- The route of a reply: the same HOPS, each PORT from RET in reverse (R290). -/
def replyRoute (f : Frame) : Nat :=
  let h := routeHops f.route
  (List.range h).foldl (fun r k => r + retHop f.ret (h - 1 - k) * 2 ^ (4 + 4 * k)) h

/-- A reply to a routed frame. -/
def Mach.reply (m : Mach) (f : Frame) (typ : Nat) (data : Bytes) (status : Nat) : Mach :=
  m.sendRouted
    { f with typ := typ, env := 0, srcPart := f.dstPart, dstBlock := f.srcBlock, dstPart := f.srcPart, last := false, bad := false,
             route := replyRoute f, len := ceilDiv data.length 32, status := status, data := slice data 0 (ceilDiv data.length 32 * 32) } none

/-! ## Arrival (R290, R291, R302) -/

/-- Relay of a frame on its next port; a port that POWER has stopped starts on demand (R290, R291, R377). -/
def Mach.relay (m : Mach) (f : Frame) : Mach :=
  let o := routePort f.route f.hidx
  if m.portUp o then
    let m := (m.demand [portDom o]).inc .LINK_RELAYED_COUNT 1 o
    { m with power := { m.power with relayAt := put natBefore o m.tick m.power.relayAt } }.enqueue o 4 { f with hidx := f.hidx + 1 } none
  else (m.inc .LINK_DISCARD_DOWN 1 o).noteRoute o

/-- The frame is one of a partition that its sender stopped on this port (R302). -/
def Mach.stoppedFrame (m : Mach) (n : Nat) (f : Frame) : Bool :=
  m.rd .LINK_STOP_SRC n == f.srcBlock && bit (m.rd .LINK_STOP_PMASK n) f.srcPart

/-- RET with the arrival port written into hop HIDX − 1. -/
def retWith (f : Frame) (n : Nat) : Nat := f.ret - retHop f.ret (f.hidx - 1) * 2 ^ (4 * (f.hidx - 1)) + n * 2 ^ (4 * (f.hidx - 1))

/-- A frame whose tag fails (R297). -/
def Mach.authFail (m : Mach) (n : Nat) : Mach := (m.inc .LINK_AUTH_FAIL 1 n).postLink n fkLinkAuth

/-- The SPDM address of partition 0 (R363). -/
def spdmAddr : Nat := 0x100000000000

/-- Frame counter f has been heard under a key slot: the ones passed over are missing (R297). -/
def RxCount.hear (r : RxCount) (f : Nat) : RxCount :=
  if r.next ≤ f then ⟨f + 1, if r.next < f then r.gaps ++ [(r.next, f)] else r.gaps⟩
  else ⟨r.next, (r.gaps.map (fun g => if g.1 ≤ f ∧ f < g.2 then [(g.1, f), (f + 1, g.2)].filter (fun x => decide (x.1 < x.2)) else [g])).flatten⟩

/-- Some frame before counter f of a key slot has not been heard. -/
def RxCount.missingBefore (r : RxCount) (f : Nat) : Bool := r.gaps.any (fun g => decide (g.1 < f)) || decide (r.next < f)

def Mach.rxCount (m : Mach) (k : Nat) : RxCount := nget (fun _ => RxCount.fresh) m.rxcnt k

/-- A frame's counter is noted under its key slot. -/
def Mach.hearFrame (m : Mach) (f : Frame) : Mach :=
  if f.keyslot = 0 then m else { m with rxcnt := nset (fun _ => RxCount.fresh) m.rxcnt f.keyslot ((m.rxCount f.keyslot).hear f.fcnt) }

/-- A frame has arrived at a port: counted, and its codewords may have been corrected (R308; log entry 125). -/
def Mach.rxFrame (m : Mach) (n : Nat) : Mach :=
  { m.inc .LINK_RXFRAMES_COUNT 1 n with fecHeard := nset (fun _ => false) m.fecHeard n true }

/-- A frame of an SPDM message over a link: the security engine takes it (R363). -/
def Mach.takeSpdm (m : Mach) (n : Nat) (f : Frame) : Mach :=
  { m with trust := { m.trust with spdmIn := put natBefore n (look (fun _ => []) n m.trust.spdmIn ++ [f]) m.trust.spdmIn } }

/-- A routed frame arrives on port n: discarded, relayed, or ended here with its opened data. -/
def Mach.arrive (m : Mach) (n : Nat) (f : Frame) (land : Frame → Bytes → Mach → Mach) : Mach :=
  if m.resets.cold || !m.portUp n then m
  else
    let m := m.rxFrame n
    if m.stoppedFrame n f then m.inc .LINK_DISCARD_STOPPED 1 n
    else
      let f := { f with ret := retWith f n }
      if f.hidx < routeHops f.route then m.relay f
      else if f.dstBlock ≠ m.rd .GLOBAL_BLOCK_NUM then (m.inc .LINK_DISCARD_ROUTE 1 n).postLink n fkLinkMisroute
      else if !m.firmware then m.inc .LINK_DISCARD_NOSERVICE 1 n
      else if f.typ = 0x10 ∧ f.keyslot = 0 ∧ f.addr = spdmAddr ∧ f.dstPart = 0 then m.takeSpdm n f
      else match m.openFrame f with
        | some data => land f data (m.hearFrame f)
        | none => m.authFail n

/-- A hop-level frame arrives on port n. -/
def Mach.arriveHop (m : Mach) (n : Nat) (k : Mach → Mach) : Mach :=
  if m.resets.cold || !m.portUp n then m else k (m.rxFrame n)

/-- A protected hop-level frame arrives on port n: its opened data, or a frame whose tag fails (R297). -/
def Mach.arriveSealed (m : Mach) (n : Nat) (f : Frame) (k : Bytes → Mach → Mach) : Mach :=
  match m.openFrame f with
  | some data => k data (m.hearFrame f)
  | none => m.authFail n

/-! ## Transfers and seals at the destination (R71 to R74) -/

/-- Landed bytes of one unit of a stack: a clean cached copy is dropped, a dirty one takes them and is written back (R63). -/
def Mach.landUnit (m : Mach) (p c : Nat) (bs : Bytes) : Mach :=
  if (m.unit (c / 32)).dirty != 0 then ((m.writeUnit p false c bs).1.flushUnit (c / 32)).1 else ((m.dropUnit (c / 32)).writeArray c bs).1

/-- Bytes landed from a link (R63): in a stack they go to DRAM, unit by unit. -/
def Mach.landBytes (m : Mach) (p a : Nat) (bs : Bytes) : Mach :=
  (pieces 256 a bs).foldl (fun m pc =>
    match m.locOf pc.1 with
    | .stack n b o =>
      if m.offlineAt (bankAddr n b o) then m.discardWrite (bankAddr n b o)
      else (pieces 32 (bankAddr n b o) pc.2).foldl (fun m u => m.landUnit p u.1 u.2) m
    | _ => (m.write p false pc.1 pc.2).1) m

def Transfer.is (t : Transfer) (src p x : Nat) : Bool := t.src == src && t.part == p && t.xfer == x

def Mach.transfer (m : Mach) (src p x : Nat) : Option Transfer := m.transfers.find? (fun t => t.is src p x)

def Mach.putTransfer (m : Mach) (t : Transfer) : Mach :=
  if (m.transfer t.src t.part t.xfer).isSome then
    { m with transfers := m.transfers.map (fun u => if u.is t.src t.part t.xfer then t else u) }
  else { m with transfers := m.transfers ++ [t] }

/-- A transfer that its seal has not closed. -/
def Transfer.isOpen (t : Transfer) : Bool := t.closedAt.isNone || t.held.isSome

/-- 256 transfers of the partition are open (R74). -/
def Mach.tableFull (m : Mach) (p : Nat) : Bool := decide (256 ≤ (m.transfers.filter (fun t => t.part == p && t.isOpen)).length)

def Frag.is (g : Frag) (src p x : Nat) : Bool := g.src == src && g.part == p && g.xfer == x

/-- Pieces of a transfer's writes are forgotten. -/
def Mach.dropFrags (m : Mach) (src p x : Nat) : Mach := { m with frags := m.frags.filter (fun g => !g.is src p x) }

/-- Envelope causes of a transfer: those of its frames, landed or lost (R40, R296). -/
def Mach.transferCauses (m : Mach) (t : Transfer) : Nat :=
  (m.frags.filter (fun g => g.is t.src t.part t.xfer)).foldl (fun k g => k ||| g.causes) t.causes

/-- A seal lands: its record, then its event; the transfer closes (R73). -/
def Mach.landSeal (m : Mach) (t : Transfer) (h : HeldSeal) (status : Nat) : Mach :=
  let rec' := slice h.payload 0 24 ++ toBytes 1 status ++ toBytes 3 t.landed ++ toBytes 2 t.xfer ++ toBytes 2 t.src
  let m := m.landBytes t.part h.addr rec'
  let m := m.raiseEvent t.part h.event
  let causes := m.transferCauses t ||| (if bit h.env 0 then causeNeighbour ||| h.env / 2 else 0)
  let m := if causes = 0 then m else
      { m with sq := { m.sq with outMarks := ⟨t.part, false, h.event, m.rd .SEQR_EVC_COUNT t.part h.event, causes⟩ :: m.sq.outMarks } }
  (m.dropFrags t.src t.part t.xfer).putTransfer { t with landed := 0, causes := 0, held := none, closedAt := some m.tick }

/-- A held seal lands when its count is reached. -/
def Mach.trySeal (m : Mach) (t : Transfer) : Mach :=
  match t.held with
  | some h =>
    if t.landed = h.expect then m.landSeal t h stOk
    else if h.expect < t.landed then m.landSeal t h stSealCount
    else m.putTransfer t
  | none => m.putTransfer t

def Transfer.new (src p x : Nat) : Transfer := ⟨src, p, x, 0, 0, none, none⟩

/-- A piece and the one that follows it in its write. -/
def Frag.join (a b : Frag) : Frag := { a with hi := b.hi, fcnt := min a.fcnt b.fcnt, last := b.last, bad := a.bad || b.bad, causes := a.causes ||| b.causes }

/-- The pieces of a transfer with one more, joined with its neighbours: the joined piece, and the others. -/
def joinFrags (gs : List Frag) (g : Frag) : Frag × List Frag :=
  let same (x : Frag) : Bool := x.is g.src g.part g.xfer
  let before := gs.find? (fun x => same x && !x.last && x.hi == g.lo)
  let gs1 := match before with | some x => gs.erase x | none => gs
  let g1 := match before with | some x => x.join g | none => g
  let after := if g1.last then none else gs1.find? (fun x => same x && x.lo == g1.hi)
  (match after with | some x => g1.join x | none => g1, match after with | some x => gs1.erase x | none => gs1)

/-- Every frame of the write that a piece ends has been stored: none of it is lost, and none before it under its key slot is missing. Where one is missing, no header
says whether it belongs to this write: a free value decides (R71, R293; log entry 13). -/
def Mach.fragDone (m : Mach) (g : Frag) : Bool × Mach :=
  if !g.last || g.bad then (false, m)
  else if g.slot = 0 || !(m.rxCount g.slot).missingBefore g.fcnt then (true, m)
  else (m.draw.1 % 2 == 1, m.draw.2)

/-- A stored WRITE frame counts toward its transfer: the write has landed with its LAST frame and every earlier one (R71, R72, R74). -/
def Mach.countWrite (m : Mach) (n : Nat) (f : Frame) : Mach :=
  let old := m.transfer f.srcBlock f.dstPart f.xfer
  if old.any (fun t => t.closedAt.isSome) then m.postLink n fkSealLate
  else if old.isNone && m.tableFull f.dstPart then m.postLink n fkSealTable
  else
    let t := old.getD (Transfer.new f.srcBlock f.dstPart f.xfer)
    let j := joinFrags m.frags (f.piece false f.causes)
    let d := m.fragDone j.1
    if d.1 then ({ d.2 with frags := j.2 } : Mach).trySeal { t with landed := (t.landed + 1) % 2 ^ 24, causes := t.causes ||| j.1.causes }
    else ({ d.2 with frags := j.1 :: j.2 } : Mach).trySeal t

/-- A WRITE frame that will not be stored: its write never lands (R74). -/
def Mach.loseWrite (m : Mach) (f : Frame) (causes : Nat) : Mach :=
  if (m.transfer f.srcBlock f.dstPart f.xfer).any (fun t => t.closedAt.isSome) then m
  else
    let j := joinFrags m.frags (f.piece true (f.causes ||| causes))
    { m with frags := j.1 :: j.2 }

/-- A WRITE frame lands, or is discarded for want of a right (R294). -/
def landWrite (n : Nat) (f : Frame) (data : Bytes) (m : Mach) : Mach :=
  if f.len ≠ 0 ∧ !(m.rangeOk f.addr (f.len * 32) && m.granted f.dstPart true f.addr (f.len * 32)) then (m.loseWrite f 0).postLink n fkLinkRights
  else (m.landBytes f.dstPart f.addr (slice data 0 (f.len * 32))).countWrite n f

/-- A SEAL frame: lands at once or is held until its count is reached (R72, R74). One that meets a held SEAL of its transfer takes its place (log entry 126). -/
def landSealFrame (n : Nat) (f : Frame) (data : Bytes) (m : Mach) : Mach :=
  if f.addr % 32 ≠ 0 ∨ !(m.inBlock f.addr && m.granted f.dstPart true f.addr 32) then m.postLink n fkLinkRights
  else
    let hold := field data 27 3
    let h : HeldSeal := ⟨f.addr, field data 30 1, field data 24 3, if hold = 0 then none else some (m.tick + hold), slice data 0 24, f.env⟩
    match m.transfer f.srcBlock f.dstPart f.xfer with
    | some t => m.trySeal { t with held := some h }
    | none =>
      if m.tableFull f.dstPart then m.postLink n fkSealTable
      else m.trySeal { Transfer.new f.srcBlock f.dstPart f.xfer with held := some h }

/-- Held seals whose limit has passed land with ST_SEAL_TIMEOUT (R74). -/
def sealHoldExpiry (src p x : Nat) (m : Mach) : Mach :=
  match m.transfer src p x with
  | some t => (match t.held with
    | some h => (match h.limit with
      | some l => if l ≤ m.tick then m.landSeal t h stSealTimeout else m
      | none => m)
    | none => m)
  | none => m

/-- A closed transfer id is released 10,000 ticks after its seal landed (R74). -/
def transferRelease (src p x : Nat) (m : Mach) : Mach :=
  match m.transfer src p x with
  | some t => (match t.closedAt with
    | some c =>
      if c + 10000 ≤ m.tick then
        (if t.held.isSome then m.putTransfer { t with closedAt := none } else { m.dropFrags src p x with transfers := m.transfers.filter (fun u => !u.is src p x) })
      else m
    | none => m)
  | none => m

/-! ## Requests served for a neighbour (R294) -/

/-- A READREQ at its destination. -/
def serveRead (n : Nat) (f : Frame) (m : Mach) : Mach :=
  let len := f.len * 32
  if !m.rangeOk f.addr len then m.reply f 0x13 [] stAddrInvalid
  else if !m.granted f.dstPart false f.addr len then (m.postLink n fkLinkRights).reply f 0x13 [] stDescRights
  else
    let m := (m.mirrorAll false 0 none f.addr len).2
    if m.readUe false f.addr len then
      ((m.noteRead false f.addr len).postUnits false 0 none f.addr len).reply f 0x13 [] stUe
    else (m.noteRead false f.addr len).reply f 0x13 (m.read false f.addr len) stOk

/-- An ATOMREQ at its destination, arrived on port n: performed in test mode, on memory of partition 0 (R78, R79), with its rights (R294). -/
def serveAtomic (n : Nat) (f : Frame) (data : Bytes) (m : Mach) : Mach :=
  let wide := field data 1 1 == 1
  let len := if wide then 8 else 4
  if !m.flag .RST_MODE_TEST then m.reply f 0x15 (toBytes 8 0) stNoRemoteAtomic
  else if !m.rangeOk f.addr len then m.reply f 0x15 (toBytes 8 0) stAddrInvalid
  else if !m.allowedRW 0 f.addr len then (m.postLink n fkLinkRights).reply f 0x15 (toBytes 8 0) stNoRemoteAtomic
  else if !m.amoTarget f.addr wide || decide (5 < field data 0 1) then m.reply f 0x15 (toBytes 8 0) stAtomicTarget
  else
    let r := m.amoDo 0 f.addr (field data 0 1) wide (field data 8 8) (field data 16 8)
    r.2.reply f 0x15 (toBytes 8 r.1) stOk

/-! ## Replies at the requester (R293 to R296) -/

/-- The command's reply limit has passed (R295). -/
def Mach.replyLate (m : Mach) (c : Issued) : Bool := decide (c.tick + m.rd .LINK_GCTL_REPLYLIM ≤ m.tick)

/-- The requests of a command are given up and it ends with a status. -/
def Mach.endRequests (m : Mach) (c : Issued) (status : Nat) : Mach :=
  { m with requests := m.requests.filter (fun r => r.cmdId != c.id) }.setIssued { c with result := some status }

/-- The oldest request of a reply's id, with its command. -/
def Mach.requestOf (m : Mach) (rid : Nat) : Option (Request × Issued) :=
  match m.requests.find? (fun r => r.rid == rid) with
  | some r => (m.issuedOf r.cmdId).map (fun c => (r, c))
  | none => none

/-- A reply that arrives late: discarded and counted. -/
def Mach.lateReply (m : Mach) : Mach := m.inc .LINK_GCTL_LATEREP

/-- A reply takes its command outside the envelope when its frame is outside (R296). -/
def Mach.neighbourOut (m : Mach) (f : Frame) (c : Issued) : Mach := if f.causes = 0 then m else m.takeOut f.causes c

/-! Fields of REMOTE (R94). -/
def remoteRead (c : Cmd) : Bool := bit c.p3 40
def remoteLen (c : Cmd) : Nat := bits c.p3 39 0

/-- Bytes of a remote read's range before the first that has not landed (R102, R295). -/
def Mach.landedPrefix (m : Mach) (c : Issued) : Nat :=
  (m.requests.filter (fun r => r.cmdId == c.id)).foldl (fun k r => min k (r.addr - c.cmd.p1)) (remoteLen c.cmd)

/-- A READREP lands its data, or ends the read with its failure. -/
def landReadRep (f : Frame) (data : Bytes) (m : Mach) : Mach :=
  match m.requestOf f.rid with
  | none => m.lateReply
  | some (r, c) =>
    if m.replyLate c then (m.endRequests c stLinkLost).lateReply
    else
      let m := m.neighbourOut f c
      let c := (m.issuedOf c.id).getD c
      if f.status ≠ stOk then m.endRequests c f.status
      else
        let m := (m.landBytes c.part r.addr (slice data 0 r.len)).throttleTouch c.id (m.stacksOf r.addr r.len)
        let c := (m.issuedOf c.id).getD c
        let m := { m with requests := m.requests.filter (fun x => x.rid != r.rid) }
        m.setIssued { c with progress := m.landedPrefix c, left := c.left - 1, result := if c.left ≤ 1 then some stOk else none }

/-- An ATOMREP delivers the replaced value to RESULT and ends the atomic. -/
def landAtomRep (f : Frame) (data : Bytes) (m : Mach) : Mach :=
  match m.requestOf f.rid with
  | none => m.lateReply
  | some (r, c) =>
    if m.replyLate c then (m.endRequests c stLinkLost).lateReply
    else
      let m := m.neighbourOut f c
      let c := (m.issuedOf c.id).getD c
      if f.status ≠ stOk then m.endRequests c f.status
      else
        let w := (m.throttleTouch c.id (m.stacksOf r.addr 8)).writeFor c.part c.id r.addr (slice data 0 8)
        w.1.endRequests { (w.1.issuedOf c.id).getD c with progress := 1 } w.2

/-- Reads and atomics of a queue whose limit has passed end with ST_LINK_LOST (R295). -/
def replyLimit (p q : Nat) (m : Mach) : Mach :=
  (m.sq.issued.filter (fun c => c.part == p && c.queue == q && c.result.isNone && m.requests.any (fun r => r.cmdId == c.id) && m.replyLate c)).foldl
    (fun m c => m.endRequests c stLinkLost) m

/-! ## REMOTE and SEAL at the sender (R94, R95) -/

/-- A route word of R289: HOPS 1 to 14, reserved bits zero. -/
def routeOk (r : Nat) : Bool := decide (1 ≤ routeHops r) && decide (routeHops r ≤ 14) && decide (r < 2 ^ 60)

/-- Check 4 of R84 for REMOTE. -/
def Mach.remoteFieldsOk (m : Mach) (c : Cmd) : Bool :=
  localWord c.p1 && c.p1 % 32 == 0 && c.p2 % 32 == 0 && remoteLen c % 32 == 0 && bits c.p3 43 41 == 0 && routeOk c.p4 && m.placeOk c.p1

/-- Check 4 for SEAL. -/
def sealFieldsOk (c : Cmd) : Bool :=
  c.p1 % 32 == 0 && bits c.p2 63 52 == 0 && bits c.p3 63 30 == 0 && decide (bits c.p3 29 24 ≤ 61) && routeOk c.p4

/-- Check 5 for REMOTE. -/
def Mach.remoteAddrOk (m : Mach) (c : Cmd) : Bool :=
  m.rangeOk c.p1 (remoteLen c) && m.globalOk c.p2 && (c.p2 / 2 ^ 48 != m.rd .GLOBAL_BLOCK_NUM || m.rangeOk (c.p2 % 2 ^ 48) (remoteLen c))

/-- Checks of a REMOTE or SEAL before anything is sent: stopped by a fault reaction (R348), first port not UP (R289), no key (R367). -/
def Mach.linkCheck (m : Mach) (p dpart : Nat) (addr route : Nat) : Option Nat :=
  if bit (m.rd .FAULT_STOP_STOPPED) p then some stWithdrawn
  else if !m.portUp (routePort route 0) then some stLinkDown
  else if (m.slotFor p (addr / 2 ^ 48 % 1024) dpart).isNone && !m.flag .RST_MODE_TEST then some stKeyAbsent
  else none

def Mach.remoteCheck (m : Mach) (p : Nat) (c : Cmd) : Option Nat :=
  if remoteRead c && remoteLen c == 0 then none else m.linkCheck p (bits c.p3 47 44) c.p2 c.p4

def Mach.sealCheck (m : Mach) (p : Nat) (c : Cmd) : Option Nat := m.linkCheck p (bits c.p2 51 48) c.p1 c.p4

/-- The ENV byte of a command's frames (R296). -/
def Issued.env (c : Issued) : Nat := if c.ooe then 1 + c.causes % 128 * 2 else 0

/-- A routed frame of a command. -/
def Mach.cmdFrame (m : Mach) (c : Issued) (typ dpart gaddr route : Nat) : Frame :=
  { typ := typ, env := c.env, srcBlock := m.rd .GLOBAL_BLOCK_NUM, srcPart := c.part, dstBlock := gaddr / 2 ^ 48 % 1024, dstPart := dpart, hidx := 1,
    last := false, bad := false, keyslot := (m.slotFor c.part (gaddr / 2 ^ 48 % 1024) dpart).getD 0, route := route, ret := 0,
    addr := gaddr % 2 ^ 48, xfer := 0, len := 0, rid := 0, status := 0, fcnt := 0, data := [], tag := List.replicate 16 0 }

/-- The frames of a REMOTE write, from byte offset i on, until a poisoned one; answers how many were queued and whether one was poisoned. -/
def remoteFrames (c : Issued) : Nat → Nat → Mach → Mach × Nat × Bool
  | 0, _, m => (m, 0, false)
  | k + 1, i, m =>
    let a := c.cmd.p1
    let n := min 2048 (remoteLen c.cmd - i)
    let m := (m.mirrorAll false c.part (some c.id) (a + i) n).2
    if m.readUe false (a + i) n then
      ((m.noteRead false (a + i) n).postUe c.part (some c.id) (m.ueAt false (a + i) n) (m.ueAt false (a + i) n), 0, true)
    else
      let m := m.afterRead c.part 1 (a + i) n
      let f := { m.cmdFrame c 0x10 (bits c.cmd.p3 47 44) (c.cmd.p2 + i) c.cmd.p4 with
        last := k == 0, xfer := bits c.cmd.p3 63 48, len := n / 32, data := m.read false (a + i) n }
      let r := remoteFrames c k (i + 2048) (m.sendRouted f (some c.id))
      (r.1, r.2.1 + 1, r.2.2)

/-- Number of frames of a length: one per 2,048 B, one for a length of 0 (R293). -/
def frameCount (len : Nat) : Nat := if len = 0 then 1 else ceilDiv len 2048

/-- A REMOTE write starts: its frames join their port's queue. -/
def Mach.remoteWriteStart (m : Mach) (c : Issued) : Mach :=
  let r := remoteFrames c (frameCount (remoteLen c.cmd)) 0 m
  let m := r.1.throttleTouch c.id (m.stacksOf c.cmd.p1 (remoteLen c.cmd))
  let c := (m.issuedOf c.id).getD c
  let st := if r.2.2 then stUe else if remoteLen c.cmd = 0 then stEmpty else stOk
  if c.result.isSome then m
  else m.setIssued { c with left := r.2.1, extra := [st], result := if r.2.1 = 0 then some st else none }

/-- The requests of a remote read. -/
def readRequests (c : Issued) : Nat → Nat → Mach → Mach
  | 0, _, m => m
  | k + 1, i, m =>
    let n := min 2048 (remoteLen c.cmd - i)
    let f := { m.cmdFrame c 0x12 (bits c.cmd.p3 47 44) (c.cmd.p2 + i) c.cmd.p4 with len := n / 32, rid := m.nextRid % 2 ^ 32 }
    let m := { m with requests := m.requests ++ [(⟨m.nextRid % 2 ^ 32, c.id, c.cmd.p1 + i, n⟩ : Request)], nextRid := m.nextRid + 1 }
    readRequests c k (i + 2048) (m.sendRouted f (some c.id))

/-- A remote read starts. -/
def Mach.remoteReadStart (m : Mach) (c : Issued) : Mach :=
  if remoteLen c.cmd = 0 then m.setIssued { c with result := some stEmpty }
  else
    let n := frameCount (remoteLen c.cmd)
    readRequests c n 0 (m.setIssued { c with left := n })

/-- A SEAL starts: its one frame (R95). The payload words were taken at issue. -/
def Mach.sealStart (m : Mach) (c : Issued) : Mach :=
  let data := toBytes 8 (nthD c.extra 0 0) ++ toBytes 8 (nthD c.extra 1 0) ++ toBytes 8 (nthD c.extra 2 0) ++ toBytes 3 (bits c.cmd.p2 39 16) ++
    toBytes 3 (bits c.cmd.p3 23 0) ++ toBytes 1 (bits c.cmd.p2 47 40) ++ toBytes 1 0
  let f := { m.cmdFrame c 0x11 (bits c.cmd.p2 51 48) c.cmd.p1 c.cmd.p4 with xfer := bits c.cmd.p2 15 0, len := 1, data := data }
  (m.setIssued { c with left := 1 }).sendRouted f (some c.id)

/-- A home atomic of test mode: one ATOMREQ (R79, R293). It has no route word; it leaves on the first UP port to that neighbour (log entry 14). -/
def Mach.homeAtomicStart (m : Mach) (c : Issued) : Mach :=
  let blk := c.cmd.p1 / 2 ^ 48 % 1024
  match (List.range 16).find? (fun n => m.portUp n && m.rd .LINK_STATE_NBLOCK n == blk) with
  | none => m.setIssued { c with result := some stLinkDown }
  | some n =>
    let data := toBytes 1 c.cmd.amoOp ++ toBytes 1 (b2n c.cmd.amoWide) ++ toBytes 6 0 ++ toBytes 8 c.cmd.p2 ++ toBytes 8 c.cmd.p4 ++ toBytes 8 0
    let f := { m.cmdFrame c 0x14 0 c.cmd.p1 (1 + n * 16) with len := 1, rid := m.nextRid % 2 ^ 32, data := data }
    let m := { m with requests := m.requests ++ [(⟨m.nextRid % 2 ^ 32, c.id, c.cmd.copyAddr, 0⟩ : Request)], nextRid := m.nextRid + 1 }
    (m.setIssued { c with left := 1 }).sendRouted f (some c.id)

/-- A COPY with AMO starts; whether its address is the block's own was settled at its issue (R52). -/
def Mach.copyAmoStart (m : Mach) (c : Issued) : Mach :=
  if c.extra = [1] then m.copyAmoLocal c else m.homeAtomicStart c

/-! ## Output ports (R292) and failures (R300) -/

/-- The frame a port sends next: highest class, then order of arrival. -/
def Mach.nextFrame (m : Mach) (n : Nat) : Option TxEntry :=
  (List.range 5).findSome? (fun k => m.txq.find? (fun e => e.port == n && e.cls == k + 1))

/-- A frame of a command has left its port: bytes counted, and the command ended with its last frame (R94, R95, R102). -/
def Mach.frameLeft (m : Mach) (id len : Nat) : Mach :=
  match m.issuedOf id with
  | none => m
  | some c =>
    let d := if c.cmd.opcode = 6 then 1 else len * 32
    m.setIssued { c with
      progress := c.progress + d, left := c.left - 1
      result := if c.left ≤ 1 then some (if c.cmd.opcode = 6 then stOk else nthD c.extra 0 stOk) else c.result }

/-- The command of an owner is ASAP. -/
def Mach.isAsap (m : Mach) (o : Option Nat) : Bool :=
  match o with
  | some id => (match m.issuedOf id with | some c => c.sched == 0 | none => false)
  | none => false

/-- A frame as its transmission starts: a SYNC frame takes the time (R298); a frame of the block's own takes its command's ENV (R296), then its frame counter, encryption and tag (R297). -/
def Mach.outFrame (m : Mach) (e : TxEntry) : Mach × Frame :=
  if e.cls = 2 then (m, { e.frame with data := toBytes 8 m.time.ns ++ e.frame.data.drop 8 })
  else if e.cls = 3 ∨ e.cls = 5 then
    m.protect (match e.owner.bind m.issuedOf with | some c => { e.frame with env := c.env } | none => e.frame)
  else (m, e.frame)

/-- A port sends its next frame once credits are granted; scheduled commands that waited behind an ASAP command's frame are outside (R40, R292). -/
def portSend (n : Nat) (m : Mach) : Mach :=
  if m.resets.cold || !m.portUp n then m
  else match m.nextFrame n with
    | none => m
    | some e =>
      let r := ({ m with txq := m.txq.erase e } : Mach).outFrame e
      let m := (r.1.inc .LINK_TXFRAMES_COUNT 1 n).emit (.frame n r.2)
      let m := match e.owner with | some id => if e.frame.carries then m.frameLeft id e.frame.len else m | none => m
      if m.isAsap e.owner then
        m.takeOutWhere causeAsap (fun c => c.sched != 0 && m.txq.any (fun x => x.port == n && x.owner == some c.id))
      else m

/-- A port's queued frames are discarded; their commands end with what had left (log entry 15). -/
def Mach.dropQueue (m : Mach) (n : Nat) : Mach :=
  let gone := m.txq.filter (fun e => e.port == n)
  let m := { m with txq := m.txq.filter (fun e => e.port != n) }
  gone.foldl (fun m e => m.frameDropped e.frame e.owner) (m.inc .LINK_DISCARD_DOWN gone.length n)

/-- A port enters FAILED (R300). -/
def Mach.portFail (m : Mach) (n : Nat) : Mach := ((m.wr .LINK_STATE_STATE 3 n).postLink n fkLinkDown).dropQueue n

def signalLoss (n : Nat) (m : Mach) : Mach :=
  if m.rd .LINK_STATE_STATE n = 2 ∨ m.rd .LINK_STATE_STATE n = 1 then m.portFail n else m

/-- Ticks of a port's FEC failures within the last millisecond. -/
def Mach.recentFec (m : Mach) (n : Nat) : List Nat := (look (fun _ => []) n m.fecTimes).filter (fun t => decide (m.tick < t + 10000))

/-- An issued REMOTE, SEAL or remote read has a frame on a port: one that waits there, or the reply to a request that left by it (R40). -/
def Mach.onPort (m : Mach) (n : Nat) (c : Issued) : Bool :=
  (c.cmd.opcode == 5 || c.cmd.opcode == 6) &&
    (m.txq.any (fun e => e.port == n && e.owner == some c.id) || (routePort c.cmd.p4 0 == n && m.requests.any (fun r => r.cmdId == c.id)))

/-- A frame that would have ended here is lost: a WRITE never lands, and the transfer of a WRITE or SEAL carries the cause to what waits on its seal (R40, R74). -/
def Mach.frameLost (m : Mach) (f : Frame) : Mach :=
  let m := m.hearFrame f
  if f.typ = 0x10 then m.loseWrite f causeFec
  else if f.typ = 0x11 then (match m.transfer f.srcBlock f.dstPart f.xfer with | some t => m.putTransfer { t with causes := t.causes ||| causeFec } | none => m)
  else m

/-- A wait condition waits on the event of a held seal of which a frame was lost (R40). -/
def Mach.waitsOnLost (m : Mach) (p w : Nat) : Bool :=
  waitKind w == 1 && m.transfers.any (fun t => t.part == p && t.held.any (fun h => h.event == waitId w) && m.transferCauses t &&& causeFec != 0)

/-- A frame that FEC cannot correct (R300, R40): the header, when it arrived intact. -/
def fecFail (n : Nat) (hdr : Option Frame) (m : Mach) : Mach :=
  if m.portUp n then
    let m := (m.inc .LINK_FEC_FAIL 1 n).postLink n fkLinkFec
    let parts := match hdr with | some f => [f.dstPart] | none => List.range 16
    let m := parts.foldl (fun m p => m.setCauses p causeFec) m
    let m := m.takeOutWhere causeFec (fun c => parts.contains c.part && m.onPort n c)
    let m := match hdr with
      | some f => if f.dstBlock = m.rd .GLOBAL_BLOCK_NUM ∧ routeHops f.route ≤ f.hidx then m.frameLost f else m
      | none => m
    let times := m.tick :: m.recentFec n
    let m := { m with fecTimes := put natBefore n times m.fecTimes }
    if 8 < times.length then m.portFail n else m
  else m

/-- The receptacle of a port holds a plug (R419; log entry 22). -/
def Mach.plugged (m : Mach) (n : Nat) : Bool := !nget (fun _ => false) m.unplugged n

/-- 1 ms after FAILED a port retrains by itself unless HOLD is set; without a plug its lasers stay off. -/
def retrainTimer (n : Nat) (m : Mach) : Mach :=
  if m.rd .LINK_STATE_STATE n = 3 ∧ !m.flag .LINK_CTL_HOLD n ∧ m.plugged n then m.wr .LINK_STATE_STATE 1 n else m

/-- A port in service trains: what waits there is discarded, without a fault record. -/
def Mach.portTrain (m : Mach) (n : Nat) : Mach := (m.dropQueue n).wr .LINK_STATE_STATE 1 n

/-- CTL.RETRAIN (R308): a dark port does not train. -/
def retrain (n : Nat) (m : Mach) : Mach := if m.flag .LINK_CTL_ENABLE n then m.portTrain n else m

/-- A port trains: it is in TRAINING, or DOWN and enabled, with the links not dark (R301, R403; log entry 22). -/
def Mach.trains (m : Mach) (n : Nat) : Bool :=
  m.plugged n && m.flag .LINK_CTL_ENABLE n && decide (m.rd .LINK_STATE_STATE n < 2) && decide (m.rd .PWR_STATE_CUR < 2) && m.power.dark.isEmpty

/-- Training ends (R286). -/
def trainingDone (n : Nat) (t : Training) (m : Mach) : Mach :=
  if m.trains n then
    match t with
    | .up nb np fib =>
      ((((m.wr .LINK_STATE_STATE 2 n).wr .LINK_STATE_NBLOCK nb n).wr .LINK_STATE_NPORT np n).wr .LINK_STATE_FIBRE fib n).setDom (portDom n) ⟨2, false, 0, 0⟩
    | .tooLong => (m.postLink n fkLinkLength).portFail n
    | .fail => m.portFail n
  else m

/-- A TRAIN frame: one marked dark puts the port in DOWN without a fault; another trains a port that is DOWN (R301). -/
def trainFrame (n : Nat) (dark : Bool) (m : Mach) : Mach :=
  if m.resets.cold || !(m.trains n || m.portUp n) then m
  else
    let m := m.rxFrame n
    if dark then (if m.portUp n then (m.wr .LINK_STATE_STATE 0 n).dropQueue n else m)
    else if m.trains n then m.wr .LINK_STATE_STATE 1 n else m

/-- A STOP frame from a neighbour (R302). -/
def stopFrame (n src mask : Nat) (m : Mach) : Mach :=
  m.arriveHop n (fun m =>
    let old := if m.rd .LINK_STOP_SRC n = src then m.rd .LINK_STOP_PMASK n else 0
    (m.wr .LINK_STOP_SRC src n).wr .LINK_STOP_PMASK (old ||| mask % 65536) n)

/-- A START frame from the same sender removes its mask. -/
def startFrame (n src mask : Nat) (m : Mach) : Mach :=
  m.arriveHop n (fun m =>
    if m.rd .LINK_STOP_SRC n = src then m.wr .LINK_STOP_PMASK (m.rd .LINK_STOP_PMASK n &&& (65535 ^^^ mask % 65536)) n else m)

/-- A frame of an unknown type (R288). -/
def unknownFrame (n : Nat) (m : Mach) : Mach := m.arriveHop n (fun m => m.inc .LINK_DISCARD_ROUTE 1 n)

/-! ## Plugs (R419) -/

/-- Signal number of the lasers of port n. -/
def pinLaser (n : Nat) : Nat := 16 + n

/-- A plug is removed: the lasers stop, and a port in service or in training enters FAILED. -/
def plugRemoved (n : Nat) (m : Mach) : Mach :=
  if !m.plugged n then m
  else
    let m : Mach := { m with unplugged := nset (fun _ => false) m.unplugged n true }
    let m := if m.flag .LINK_CTL_ENABLE n then m.emit (.pin (pinLaser n) false) else m
    if m.rd .LINK_STATE_STATE n = 1 ∨ m.rd .LINK_STATE_STATE n = 2 then m.portFail n else m

/-- A plug is inserted: the lasers of an enabled port emit. -/
def plugInserted (n : Nat) (m : Mach) : Mach :=
  if m.plugged n then m
  else
    let m : Mach := { m with unplugged := nset (fun _ => false) m.unplugged n false }
    if m.flag .LINK_CTL_ENABLE n then m.emit (.pin (pinLaser n) true) else m

end Sys2Proof.Machine
end

