-- ==== Sys2Proof/Machine/Pages.lean ====
section
/-! DEFINITION. Pages, page lists, page pools and the PAGE command (R226, R231 to R238, R422). -/
namespace Sys2Proof.Machine

/-- Bank-view address of page P of stack n (R226), and its bank. -/
def pageAddr (n page : Nat) : Nat := bankBase + n * 2 ^ 35 + page * 0x2000
def pageBank (page : Nat) : Nat := page / 8192

/-- First granule of a page. -/
def pageGranule (page : Nat) : Nat := page * 8

/-! Page-list entries (R231). -/
def entryValid (e : Nat) : Bool := bit e 31
def entryFar (e : Nat) : Bool := bit e 30
def entryPage (e : Nat) : Nat := e % 2 ^ 22
def entrySlot (e : Nat) : Nat := e % 2 ^ 29
def entryBad (e : Nat) : Bool := if entryValid e then !entryFar e && bits e 29 22 != 0 else e != 0
def pageEntry (page : Nat) : Nat := 2 ^ 31 + page
def farEntry (slot : Nat) : Nat := 2 ^ 31 + 2 ^ 30 + slot

/-! ## Pools (R233 to R235) -/

def poolKey (p n : Nat) : Nat := p * 16 + n
def Mach.poolHeadAt (m : Mach) (p n : Nat) : Nat := nget (fun _ => 0) m.poolHead (poolKey p n)

/-- What a pop gave. -/
inductive Popped where
  | page (k : Nat)
  | empty
  | poison
  deriving DecidableEq, Repr

/-- A pop, with or without the reserve right (R234). -/
def Mach.pop (m : Mach) (p n : Nat) (useRes : Bool) (id : Option Nat) (session : Nat) : Mach × Popped :=
  let free := m.rd .SEC_POOL_COUNT_FREE p n
  let ok := m.flag .SEC_POOL_CFG_ENABLE p n && (if useRes then decide (0 < free) else decide (m.rd .SEC_POOL_RESERVE_PAGES p n < free))
  if !ok then (m.inc .SEC_POOL_FAIL_COUNT 1 p n, .empty)
  else
    let size := 2 ^ m.rd .SEC_POOL_CFG_LOG2 p n
    let h := m.poolHeadAt p n
    let a := m.rd .SEC_POOL_RING_ADDR p n + 4 * (h % size)
    let m := (m.mirrorAll false p id a 4).2
    let bad := m.readUe false a 4
    let v := m.readNat false a 4
    let m := m.afterRead p 1 a 4
    let m := { (m.wr .SEC_POOL_COUNT_FREE (free - 1) p n) with poolHead := nset (fun _ => 0) m.poolHead (poolKey p n) ((h + 1) % size) }
    let low := m.rd .SEC_POOL_LOW_LEVEL p n
    let m := if low ≤ free ∧ free - 1 < low then (m.raiseEvent p (m.rd .SEC_POOL_LOW_EVENT p n)).wr .SEC_POOL_LOW_HIT 1 p n else m
    if bad then (m.postUe p id a session, .poison) else (m, .page (entryPage v))

/-- First page and count of a pool's ADD in progress. -/
def Mach.addOf (m : Mach) (p n : Nat) : Option (Nat × Nat) := (m.adds.find? (fun a => a.1 == poolKey p n)).map (fun a => a.2)

/-- A push by an item finds room in the ring beside what an ADD in progress is owed (R235). -/
def Mach.pushFits (m : Mach) (p n : Nat) : Bool :=
  m.flag .SEC_POOL_CFG_ENABLE p n && decide (m.rd .SEC_POOL_COUNT_FREE p n + (match m.addOf p n with | some r => r.2 | none => 0) < 2 ^ m.rd .SEC_POOL_CFG_LOG2 p n)

/-- A push appends one page number; in a pool that is not enabled it fails (R234). -/
def Mach.pushPage (m : Mach) (p n page : Nat) : Mach :=
  if !m.flag .SEC_POOL_CFG_ENABLE p n then m
  else
  let free := m.rd .SEC_POOL_COUNT_FREE p n
  let size := 2 ^ m.rd .SEC_POOL_CFG_LOG2 p n
  let a := m.rd .SEC_POOL_RING_ADDR p n + 4 * ((m.poolHeadAt p n + free) % size)
  (m.write p false a (toBytes 4 page)).1.wr .SEC_POOL_COUNT_FREE (free + 1) p n

/-- A page is forgotten (R221). -/
def Mach.forgetPage (m : Mach) (n page : Nat) : Mach := m.forgetNow n (pageGranule page) 8

/-- ADD.GO with its fields: the range is checked, forgotten, and owed to the pool (R235). -/
def poolAddGo (p n first count : Nat) (m : Mach) : Mach :=
  let m := (m.wr .SEC_POOL_ADD_FIRST first p n).wr .SEC_POOL_ADD_COUNT count p n
  let f := m.rd .SEC_POOL_ADD_FIRST p n
  let c := m.rd .SEC_POOL_ADD_COUNT p n
  if (m.addOf p n).isSome || !m.flag .SEC_POOL_CFG_ENABLE p n || c == 0 || decide (4194304 < f + c) ||
      !(List.range c).all (fun i => m.allowedRW p (pageAddr n (f + i)) 8192) || decide (2 ^ m.rd .SEC_POOL_CFG_LOG2 p n < m.rd .SEC_POOL_COUNT_FREE p n + c) then
    (m.wr .SEC_POOL_ADDST_REFUSED 1 p n).badAcc
  else
    let m := m.forgetNow n (pageGranule f) (8 * c)
    { (m.wr .SEC_POOL_ADDST_BUSY 1 p n) with adds := (poolKey p n, f, c) :: m.adds }

/-- The pushes of an ADD, in ascending order, and its end. -/
def poolAddDone (p n : Nat) (m : Mach) : Mach :=
  match m.addOf p n with
  | some r =>
    let m := { m with adds := m.adds.filter (fun a => a.1 != poolKey p n) }
    let m := (List.range r.2).foldl (fun m i => m.pushPage p n (r.1 + i)) m
    (m.wr .SEC_POOL_ADDST_BUSY 0 p n).wr .SEC_POOL_ADDST_DONE 1 p n
  | none => m

/-! ## PAGE (R236 to R238, R422) -/

def pageOp (c : Cmd) : Nat := bits c.p1 1 0

/-- Check 4 of R84 for PAGE. -/
def pageFieldsOk (c : Cmd) : Bool :=
  pageOp c != 0 && bits c.p1 63 2 == 0 && bits c.p3 63 24 == 0 && localWord c.p2 && localWord c.p4

/-- An address in stack n, in either view. -/
def Mach.inStack (m : Mach) (n a : Nat) : Bool := m.inStacks a && stackOf a == n

/-- An address in stack n in the bank view. -/
def Mach.inBankView (m : Mach) (n a : Nat) : Bool := m.region a == 1 && stackOf a == n

/-- The checks of R422. -/
def Mach.pageCheck (m : Mach) (p n : Nat) (c : Cmd) : Option Nat :=
  if !(c.p2 % 16 == 0 && m.inStack n c.p2 && (c.p4 == 0 || (c.p4 % 32 == 0 && m.inStack n c.p4))) then some stAddrInvalid
  else if !(m.granted p false c.p2 (c.p3 * 16) && (c.p4 == 0 || m.allowed p true c.p4 c.p3)) then some stDescRights
  else none

/-- A PAGE item's checks before its entry is read (R237): a status, or nothing. -/
def Mach.pageItemForm (m : Mach) (p n op : Nat) (b : Bytes) : Option Nat :=
  let entry := field b 0 6
  let fl := field b 6 1
  let slot := field b 8 4
  let spill := bit fl 1
  if !(field b 7 1 == 0 && field b 12 4 == 0 && bits fl 7 2 == 0 && (op == 1 || !bit fl 0) && (op == 2 || !spill) && bits slot 31 29 == 0 && (spill || slot == 0)) then some stItemFormat
  else if !(entry % 4 == 0 && m.inBankView n entry) then some stAddrInvalid
  else if !m.allowedRW p entry 4 then some stDescRights
  else none

/-- A slot of the far tier that lies in no expander, or whose port is not up (R54, R320). -/
def Mach.slotAbsent (m : Mach) (slot : Nat) : Bool := !m.rangeOk (farBase + slot * 0x2000) 0x2000 || m.region (farBase + slot * 0x2000) != 3

/-- A PAGE item's checks with the entry it has read (R237): a status, or nothing. A slot that is absent ends it with ST_ADDR_INVALID (R320). -/
def Mach.pageItemCheck (m : Mach) (p n op : Nat) (b : Bytes) (e : Nat) : Option Nat :=
  let slot := field b 8 4
  let spill := bit (field b 6 1) 1
  if entryBad e then some stPageCheck
  else if entryValid e && !entryFar e && !m.allowedRW p (pageAddr n (entryPage e)) 8192 then some stDescRights
  else if entryValid e && entryFar e && op == 1 && m.slotAbsent (entrySlot e) then some stAddrInvalid
  else if spill && entryValid e && !entryFar e && m.slotAbsent slot then some stAddrInvalid
  else if entryValid e && entryFar e && op == 1 && !m.allowed p false (farBase + entrySlot e * 0x2000) 0x2000 then some stDescRights
  else if spill && entryValid e && !entryFar e && !m.allowed p true (farBase + slot * 0x2000) 0x2000 then some stDescRights
  else none

/-- What one PAGE item came to: a status, or a far-tier access that it waits for. -/
inductive PageEnd where
  | done (st : Nat)
  | far
  deriving DecidableEq, Repr

/-- A write to DRAM that may be discarded at an uncorrectable codeword: ST_OK or ST_POISON (R331). -/
def okOrPoison (lost : Bool) : Nat := if lost then stPoison else stOk

/-- One PAGE item. -/
def Mach.pageItem (m : Mach) (c : Issued) (k : Nat) : Mach × PageEnd :=
  let p := c.part
  let n := c.queue - 8
  let op := pageOp c.cmd
  let id := some c.id
  let a := c.cmd.p2 + k * 16
  let m := (m.mirrorAll false p id a 16).2
  let b := m.read false a 16
  let bad := m.readUe false a 16
  let m := m.afterRead p 1 a 16
  let entry := field b 0 6
  let form := m.pageItemForm p n op b
  let m := if bad || form.isSome then m else (m.mirrorAll true p id entry 4).2
  let e := m.readNat true entry 4
  if bad then (m.postUe p id a a, .done stPoison)
  else if form.isNone && m.readUe true entry 4 then ((m.noteRead true entry 4).postUe p id (m.ueAt true entry 4) (m.ueAt true entry 4), .done stPoison)
  else match form.orElse (fun _ => m.pageItemCheck p n op b e) with
    | some st => (m, .done st)
    | none =>
      match op with
      | 1 =>
        if !entryValid e then
          match m.pop p n (bit (field b 6 1) 0) id 0 with
          | (m, .page g) => let w := m.writeDram entry (toBytes 4 (pageEntry g)); (w.1, .done (okOrPoison w.2))
          | (m, .empty) => (m, .done stPoolEmpty)
          | (m, .poison) => (m, .done stPoison)
        else if !entryFar e then (m, .done stPresent)
        else if c.sched ≠ 0 then (m, .done stSchedExternal)
        else match m.pop p n (bit (field b 6 1) 0) id 0 with
          | (m, .page g) => (m.farSend c k .restore (entrySlot e) (pageAddr n g) entry, .far)
          | (m, .empty) => (m, .done stPoolEmpty)
          | (m, .poison) => (m, .done stPoison)
      | 2 =>
        if !entryValid e then (m, .done stEmpty)
        else if entryFar e then (m, .done stPageFar)
        else if !m.pushFits p n then (m, .done stPoolFull)
        else
          let g := entryPage e
          if bit (field b 6 1) 1 then
            if (m.key 2 p).isEmpty then (m, .done stKeyAbsent)
            else
              let m := (m.mirrorAll true p id (pageAddr n g) 8192).2
              if m.readUe true (pageAddr n g) 8192 then
                ((m.noteRead true (pageAddr n g) 8192).postUe p id (m.ueAt true (pageAddr n g) 8192) (m.ueAt true (pageAddr n g) 8192), .done stPoison)
              else (m.farSend c k .spill (field b 8 4) (pageAddr n g) entry, .far)
          else
            let w := ((m.forgetPage n g).pushPage p n g).writeDram entry (toBytes 4 0)
            (w.1, .done (okOrPoison w.2))
      | _ =>
        if !entryValid e then (m, .done stEmpty)
        else if entryFar e then (m, .done stPageFar)
        else (m.forgetPage n (entryPage e), .done stOk)

/-- Items from the next one on, until one waits for the far tier or none is left. -/
def pageRun (id : Nat) : Nat → Mach → Mach
  | 0, m => m
  | fuel + 1, m =>
    match m.issuedOf id with
    | none => m
    | some c =>
      let k := c.itemSt.length
      if c.cmd.p3 ≤ k then
        let sts := c.itemSt.filterMap (fun s => s)
        m.setIssued { c with result := some (itemsStatus sts), progress := itemsDone sts, items := c.cmd.p4 }
      else
        let r := match c.extra with
          | st :: _ => (m, PageEnd.done st)
          | [] => m.pageItem c k
        match r.2 with
        | .far => r.1
        | .done st => pageRun id fuel (match r.1.issuedOf id with | some c => r.1.setIssued { c with itemSt := c.itemSt ++ [some st] } | none => r.1)

/-- A PAGE command starts. -/
def Mach.pageStart (m : Mach) (c : Issued) : Mach :=
  if c.cmd.p3 = 0 then m.setIssued { c with result := some stEmpty, items := c.cmd.p4 }
  else match m.pageCheck c.part (c.queue - 8) c.cmd with
    | some st => m.setIssued { c with result := some st }
    | none => pageRun c.id (c.cmd.p3 + 1) m

/-- A far-tier item of a PAGE command ends with a status, and the items after it go on. -/
def Mach.pageItemEnds (m : Mach) (cmdId st : Nat) : Mach :=
  match m.issuedOf cmdId with
  | some c => pageRun cmdId (c.cmd.p3 + 1) (m.setIssued { c with itemSt := c.itemSt ++ [some st] })
  | none => m

/-- A restore ends (R237): the page and its entry are written, or the page goes back to the pool, forgotten. -/
def Mach.restoreEnds (m : Mach) (f : FarOp) (data : Option Bytes) (st : Nat) : Mach :=
  let n := stackOf f.page
  let g := (f.page - bankBase) % 2 ^ 35 / 0x2000
  match data with
  | some bs =>
    let w := m.writeDram f.page bs
    let w2 := w.1.writeDram f.entry (toBytes 4 (pageEntry g))
    w2.1.pageItemEnds f.cmdId (okOrPoison (w.2 || w2.2))
  | none =>
    let m := m.forgetPage n g
    (if m.pushFits f.part n then m.pushPage f.part n g else m).pageItemEnds f.cmdId st

/-- A spill ends: the slot is sealed, the page forgotten and pushed, and the entry names the slot; or nothing changes, also where the pool has lost its room to an ADD meanwhile (R235). -/
def Mach.spillEnds (m : Mach) (f : FarOp) (ok : Bool) (st : Nat) : Mach :=
  let n := stackOf f.page
  let g := (f.page - bankBase) % 2 ^ 35 / 0x2000
  if ok && !m.pushFits f.part n then m.pageItemEnds f.cmdId stPoolFull
  else if ok then
    let m := m.farSeal f.part f.slot (m.read true f.page 8192)
    let w := ((m.forgetPage n g).pushPage f.part n g).writeDram f.entry (toBytes 4 (farEntry f.slot))
    w.1.pageItemEnds f.cmdId (okOrPoison w.2)
  else m.pageItemEnds f.cmdId st

/-! ## Forgets of a stack's own registers (R221) -/

/-- STACK[n].FORGET.GO with its fields: the cache of the die loses its lines of the range; the bits clear when the forget is done. -/
def stackForgetGo (n base len : Nat) (m : Mach) : Mach :=
  let m := (m.wr .STACK_FORGET_BASE base n).wr .STACK_FORGET_LEN len n
  let b := m.rd .STACK_FORGET_BASE n
  let l := m.rd .STACK_FORGET_LEN n
  if m.flag .STACK_FORGETST_BUSY n || l == 0 || decide (2 ^ 25 < b + l) then (m.wr .STACK_FORGETST_REFUSED 1 n).badAcc
  else { (m.invalidateGranules n b l).wr .STACK_FORGETST_BUSY 1 n with forgets := m.forgets ++ [⟨n, b, l, .register⟩] }

end Sys2Proof.Machine
end

