-- ==== Sys2Proof/Machine/Attend.lean ====
section
/-! DEFINITION. What the bank engines compute (R199, R200, R227 to R230, R239 to R250): sequence and page-format descriptors, pages read by runs, the attention fold, the plane-weight product, and the append. -/
namespace Sys2Proof.Machine

/-! ## Descriptors (R202, R227, R228, R239) -/

/-- The page-format descriptor in 64 bytes, when it is valid for a kind. -/
def pageFmtOf (kind : Nat) (b : Bytes) : Option PageFmt :=
  let w0 := field b 0 8
  let w1 := field b 8 8
  let kf := bits w0 12 8
  let vf := bits w0 17 13
  let f : PageFmt := ⟨bits w0 7 0, kf - 0x10, vf - 0x10, bits w0 19 18, bits w0 28 20, bits w0 36 29, bits w1 10 0, bits w1 18 11⟩
  let pq (x : Nat) : Bool := decide (0x12 ≤ x) && decide (x ≤ 0x18)
  let common := f.fmtid != 0 && pq kf && bits w0 63 37 == 0 && (List.range 6).all (fun i => field b (16 + 8 * i) 8 == 0)
  let kv := f.cls == 1 && pq vf && (f.dim == 64 || f.dim == 128) && f.tpp != 0 && f.tpp % (256 / f.dim) == 0 &&
    decide (f.tpp * f.dim / 256 * (f.nk + f.nv) * 32 ≤ 7680) && decide (2 * f.tpp * f.dim / 64 ≤ 480) && w1 == 0 && kind != 2
  let wt := f.cls == 2 && vf == 0 && f.dim == 0 && f.tpp == 0 && bits w1 63 19 == 0 && (f.kt == 256 || f.kt == 512 || f.kt == 768 || f.kt == 1024) &&
    decide (1 ≤ f.rowspp) && decide (f.rowspp ≤ 128) && decide (f.rowspp * (f.kt * f.nk / 8 + f.kt / 64) ≤ 8192) && kind == 2
  if common && (kv || wt) then some f else none

/-- The sequence descriptor in 64 bytes, and the address of its page format, when its own rules hold. -/
def seqDescOf (b : Bytes) : Option (SeqDesc × Nat) :=
  let w0 := field b 0 8
  let w1 := field b 8 8
  let w2 := field b 16 8
  let kind := bits w0 7 0
  let qf := bits w0 16 12
  let of := bits w0 11 9
  let d : SeqDesc :=
    { kind := kind, exch := bit w0 8, ofmt := of, scale := BitVec.ofNat 32 w2, cin := kind == 1 && bit w2 32, cout := kind == 1 && bit w2 33
      maxPages := bits w2 16 0, useRes := bit w2 32, kpages := bits w2 47 32 }
  let common := bits w0 63 17 == 0 && decide (of ≤ 1) && bits w1 63 48 == 0 && (List.range 5).all (fun i => field b (24 + 8 * i) 8 == 0)
  let own :=
    match kind with
    | 1 => qf == 2 && bits w2 63 34 == 0
    | 2 => qf == 2 && bits w2 63 48 == 0 && d.kpages != 0
    | 3 => qf == 0 && of == 0 && bits w2 31 17 == 0 && bits w2 63 33 == 0 && decide (1 ≤ d.maxPages) && decide (d.maxPages ≤ 65536)
    | _ => false
  if common && own then some (d, w1) else none

/-! ## Sizes -/

/-- Planes read of n at a shed level (R250). -/
def shedPlanes (n shed : Nat) : Nat := max 2 (n - shed)

/-- List entries an item uses (R240). -/
def usedEntries (d : SeqDesc) (f : PageFmt) (len : Nat) : Nat :=
  match d.kind with
  | 1 => ceilDiv len f.tpp
  | 2 => if len = 0 then 0 else d.kpages
  | _ => 1

def ofmtBytes (of : Nat) : Nat := if of = 1 then 2 else 4
def round32 (n : Nat) : Nat := ceilDiv n 32 * 32

/-- Bytes of a record between banks, and of a CIN or COUT record (R243, R247). -/
def recordLen (d : SeqDesc) (f : PageFmt) (rows len : Nat) : Nat :=
  if d.kind = 1 then rows * (32 + 5 * f.dim) else 32 + 4 * len * rows

/-- Bytes of IN and OUT. -/
def inLen (d : SeqDesc) (f : PageFmt) (rows : Nat) : Nat :=
  match d.kind with
  | 1 => if d.cin then rows * (32 + 5 * f.dim) else rows * f.dim
  | 2 => rows * d.kpages * f.kt
  | _ => round32 ((f.nk + f.nv) * (f.dim / 8) + 2 * (f.dim / 64))

def outLen (d : SeqDesc) (f : PageFmt) (rows len : Nat) : Nat :=
  match d.kind with
  | 1 => if d.cout then rows * (32 + 5 * f.dim) else rows * f.dim * ofmtBytes d.ofmt
  | 2 => rows * round32 (len * ofmtBytes d.ofmt)
  | _ => 32

/-- Tokens of page i that an ATTEND item uses (R242), and the run groups that hold them. -/
def pageTokens (f : PageFmt) (len i : Nat) : Nat := min f.tpp (len - i * f.tpp)
def pageGroups (f : PageFmt) (ntok : Nat) : Nat := ceilDiv ntok (256 / f.dim)

/-- Engine cycles of page i of an item (R246); `travels`: its record comes from another bank. -/
def pageCost (it : Item) (i : Nat) (travels : Bool) : Nat :=
  let f := it.fmt
  let last := if i + 1 = it.pages.length then 4 + 4 * it.rows else 0
  if it.desc.kind = 1 then
    (if i = 0 then (if it.desc.cin then 4 + 4 * it.rows else 4 + ceilDiv (it.rows * f.dim) 32) else if travels then 4 + 4 * it.rows else 0) +
      pageGroups f (pageTokens f it.len i) * (shedPlanes f.nk it.shed + shedPlanes f.nv it.shed) * it.rows + 16 + last
  else
    4 + ceilDiv (it.rows * f.kt) 32 + (if i ≠ 0 && travels then 4 + 4 * it.rows else 0) +
      it.len * (f.kt / 256) * shedPlanes f.nk it.shed * it.rows + ceilDiv (it.len * f.kt / 64) 32 + last

/-! ## Plane runs (R200, R333, R334) -/

/-- A run of 256 elements as an engine reads it: their values, a poisoned unit, a unit served shed. -/
structure RunRead where
  vals : List FVal
  poison : Bool
  shed : Bool

/-- Plane units of a run at a that a read with k of n planes touches. -/
def runUnits (a n k : Nat) : List Nat := (List.range k).map (fun i => a + 32 * (n - k + i))

/-- The run of n planes at a, read with k planes. -/
def Mach.readRun (m : Mach) (a n k : Nat) : RunRead :=
  let bad := (runUnits a n k).filter (fun u => m.readUe true u 32)
  let serves := bad.map (fun u => m.serveUe true u n)
  let top := serves.foldl (fun t s => match s with | .shed b => max t (b + 1) | _ => t) 0
  let k' := min k (n - top)
  let planes := (List.range n).map (fun b => m.read true (a + 32 * b) 32)
  ⟨(List.range 256).map (fun i =>
      pqVal n k' ((List.range n).foldl (fun s b => s + b2n (bit (nthD (nthD planes b []) (i / 8) 0).toNat (i % 8)) * 2 ^ b) 0)),
    serves.any (fun s => match s with | .shed _ => false | _ => true), top != 0⟩

/-- Mirrors serve what they can of a list of units, and what reading them leaves is counted (R328, R333). -/
def Mach.touchUnits (m : Mach) (p : Nat) (id : Option Nat) (us : List Nat) : Bool × Mach :=
  us.foldl (fun (r : Bool × Mach) u =>
    let x := r.2.mirrorAll true p id u 32
    (r.1 || x.1, x.2.noteRead true u 32)) (false, m)

/-! ## The fold (R241, R242) -/

/-- Score of a query row against a token: blocks of 64 dimensions, one rounding each. -/
def score (qscale : Word32) (q ks k : List FVal) : Word32 :=
  (List.range (k.length / 64)).foldl (fun acc c =>
    accumulate acc ((fp32Val qscale).mul (nthD ks c .nan)) (blockSum (((q.drop (64 * c)).take 64).zip ((k.drop (64 * c)).take 64)))) 0

def subW (a b : Word32) : Word32 := rne32 ((fp32Val a).add (fp32Val b).neg)
def mulW (a b : Word32) : Word32 := rne32 ((fp32Val a).mul (fp32Val b))
def addW (a b : Word32) : Word32 := rne32 ((fp32Val a).add (fp32Val b))
def maxW (a b : Word32) : Word32 := rne32 (fmax (fp32Val a) (fp32Val b))
def expW (a : Word32) : Word32 := rne32 (vexp (fp32Val a))
def negInf : Word32 := 0xFF800000

/-- A token of a group: key, key scales, value, value scales. -/
structure Token where
  k : List FVal
  ks : List FVal
  v : List FVal
  vs : List FVal

/-- One group folded into one row's state; a NaN score or scale makes the whole of it NaN (R242). -/
def foldGroup (qscale : Word32) (ts : List Token) (r : AccRow) : AccRow :=
  let q := r.q.map (fun b => e4m3Val b.toNat)
  let ss := ts.map (fun t => score qscale q t.ks t.k)
  let mn := maxW r.m (ss.foldl maxW negInf)
  let alpha := expW (subW r.m mn)
  let o0 := r.o.map (fun x => mulW x alpha)
  let fin := (ts.zip ss).foldl (fun (st : Word32 × List Word32) x =>
    let p := expW (subW x.2 mn)
    (addW st.1 p, (List.range st.2.length).map (fun j => accumulate (nthD st.2 j 0) ((fp32Val p).mul (nthD x.1.vs (j / 64) .nan)) (nthD x.1.v j .nan)))) (mulW r.l alpha, o0)
  if ts.any (fun t => t.vs.any FVal.isNan) then { r with m := rne32 .nan, l := rne32 .nan, o := r.o.map (fun _ => rne32 .nan) }
  else { r with m := mn, l := fin.1, o := fin.2 }

/-- What reading a page gave. -/
inductive PageRead where
  | ok (acc : List AccRow) (shed : Bool)
  | poison (a : Nat)
  | mismatch

/-- The trailer of page i matches its item (R246). -/
def trailerOk (f : PageFmt) (session i root : Nat) (t : Bytes) : Bool :=
  field t 481 1 == f.fmtid && field t 482 2 == session && field t 484 4 == i && field t 488 4 == bits root 34 6

/-- Key-value page i at `a` folded into an item's rows. -/
def Mach.foldKv (m : Mach) (it : Item) (i a : Nat) : PageRead :=
  let f := it.fmt
  let ntok := pageTokens f it.len i
  let nb := f.dim / 64
  let tpr := 256 / f.dim
  let kk := shedPlanes f.nk it.shed
  let kv := shedPlanes f.nv it.shed
  let tr := m.read true (a + 7680) 512
  if m.readUe true (a + 7680) 512 then .poison (a + 7680)
  else if !(trailerOk f it.session i it.root tr && decide (ntok ≤ field tr 480 1)) then .mismatch
  else
    (List.range (pageGroups f ntok)).foldl (fun r g =>
      match r with
      | .ok acc shed =>
        let base := a + g * (f.nk + f.nv) * 32
        let rk := m.readRun base f.nk kk
        let rv := m.readRun (base + f.nk * 32) f.nv kv
        if rk.poison then .poison base
        else if rv.poison then .poison (base + f.nk * 32)
        else
          let toks := ((List.range tpr).filter (fun x => decide (g * tpr + x < ntok))).map (fun x =>
            let t := g * tpr + x
            { k := (rk.vals.drop (x * f.dim)).take f.dim
              ks := (List.range nb).map (fun c => e4m3Val (nthD tr (t * nb + c) 0).toNat)
              v := (rv.vals.drop (x * f.dim)).take f.dim
              vs := (List.range nb).map (fun c => e4m3Val (nthD tr (f.tpp * nb + t * nb + c) 0).toNat) : Token })
          .ok (acc.map (foldGroup it.desc.scale toks)) (shed || rk.shed || rv.shed)
      | x => x) (.ok it.acc false)

/-- Units of a key-value page that a fold reads. -/
def kvUnits (it : Item) (i a : Nat) : List Nat :=
  let f := it.fmt
  ((List.range (pageGroups f (pageTokens f it.len i))).map (fun g =>
    let base := a + g * (f.nk + f.nv) * 32
    runUnits base f.nk (shedPlanes f.nk it.shed) ++ runUnits (base + f.nk * 32) f.nv (shedPlanes f.nv it.shed))).flatten ++
    (List.range 16).map (fun u => a + 7680 + 32 * u)

/-- Weight page i at `a` accumulated into an item's rows (R247); `x` holds each input row's slice. -/
def Mach.foldWeights (m : Mach) (it : Item) (a : Nat) (x : List Bytes) : PageRead :=
  let f := it.fmt
  let k := shedPlanes f.nk it.shed
  let rowLen := f.kt * f.nk / 8
  let sbase := a + f.rowspp * rowLen
  if m.readUe true sbase (it.len * f.kt / 64) then .poison sbase
  else
    (List.range it.len).foldl (fun r w =>
      match r with
      | .ok acc shed =>
        let runs := (List.range (f.kt / 256)).map (fun g => m.readRun (a + w * rowLen + g * f.nk * 32) f.nk k)
        if runs.any (·.poison) then .poison (a + w * rowLen)
        else
          let vals := (runs.map (·.vals)).flatten
          let acc := (acc.zip x).map (fun rx =>
            let row := rx.1
            let v := (List.range (f.kt / 64)).foldl (fun s c =>
              accumulate s ((fp32Val it.desc.scale).mul (e4m3Val (m.byteAt true (sbase + w * (f.kt / 64) + c)).1.toNat))
                (blockSum ((((rx.2.drop (64 * c)).take 64).map (fun b => e4m3Val b.toNat)).zip ((vals.drop (64 * c)).take 64)))) (nthD row.o w 0)
            { row with o := setNth row.o w v })
          .ok acc (shed || runs.any (·.shed))
      | e => e) (.ok it.acc false)

/-- Units of a weight page that a product reads. -/
def weightUnits (it : Item) (a : Nat) : List Nat :=
  let f := it.fmt
  let rowLen := f.kt * f.nk / 8
  ((List.range it.len).map (fun w => ((List.range (f.kt / 256)).map (fun g => runUnits (a + w * rowLen + g * f.nk * 32) f.nk (shedPlanes f.nk it.shed))).flatten)).flatten ++
    pieceStarts 32 (a + f.rowspp * rowLen) (it.len * f.kt / 64)

/-! ## Input and output -/

/-- The rows an item starts with, from its IN bytes (R242, R245, R247). -/
def startRows (it : Item) (b : Bytes) : List AccRow :=
  let f := it.fmt
  (List.range it.rows).map (fun r =>
    if it.desc.kind = 2 then ⟨0, 0, List.replicate it.len 0, []⟩
    else if it.desc.cin then
      let at' := r * (32 + 5 * f.dim)
      ⟨BitVec.ofNat 32 (field b at' 4), BitVec.ofNat 32 (field b (at' + 4) 4), (List.range f.dim).map (fun j => BitVec.ofNat 32 (field b (at' + 32 + f.dim + 4 * j) 4)), slice b (at' + 32) f.dim⟩
    else ⟨negInf, 0, List.replicate f.dim 0, slice b (r * f.dim) f.dim⟩)

/-- A value in an output format (R166). -/
def outBytes (of : Nat) (v : FVal) : Bytes := if of = 1 then toBytes 2 (rneBf16 v) else toBytes 4 (rne32 v).toNat

/-- The bytes an item writes to OUT when every page has been folded (R242, R243, R247). -/
def itemOutput (it : Item) : Bytes :=
  (it.acc.map (fun r =>
    if it.desc.kind = 2 then
      let b := (r.o.map (fun w => outBytes it.desc.ofmt (fp32Val w))).flatten
      slice b 0 (round32 b.length)
    else if it.desc.cout then toBytes 4 r.m.toNat ++ toBytes 4 r.l.toNat ++ List.replicate 24 0 ++ r.q ++ (r.o.map (fun w => toBytes 4 w.toNat)).flatten
    else (r.o.map (fun w => outBytes it.desc.ofmt (fdiv (fp32Val w) (fp32Val r.l)))).flatten)).flatten

/-! ## Append (R248, R249) -/

/-- The planes of a token in a page: byte address and bytes of each write, keys then values; then its scales. -/
def appendWrites (f : PageFmt) (a slot : Nat) (b : Bytes) : List (Nat × Bytes) :=
  let tpr := 256 / f.dim
  let w := f.dim / 8
  let nb := f.dim / 64
  let base := a + slot / tpr * (f.nk + f.nv) * 32 + slot % tpr * w
  (List.range (f.nk + f.nv)).map (fun i => (base + 32 * i, slice b (i * w) w)) ++
    [(a + 7680 + slot * nb, slice b ((f.nk + f.nv) * w) nb), (a + 7680 + f.tpp * nb + slot * nb, slice b ((f.nk + f.nv) * w + nb) nb)]

/-- The 32 bytes of the append record. -/
def appendRecord (entry i count : Nat) (popped : Bool) : Bytes :=
  toBytes 4 entry ++ toBytes 4 i ++ toBytes 1 count ++ toBytes 1 (b2n popped) ++ List.replicate 22 0

/-- A blank page's trailer (R229). -/
def trailerBlank (t : Bytes) : Bool := field t 480 1 == 0 && field t 481 1 == 0 && field t 482 2 == 0 && field t 484 4 == 0 && field t 488 4 == 0

end Sys2Proof.Machine
end

