-- ==== Sys2Proof/Machine/Stacks.lean ====
section
/-! DEFINITION. STACK commands and their items, the banks' plan and the ordinary accesses they serve, refresh, throttle and forgets (R201 to R224, R243, R244). -/
namespace Sys2Proof.Machine

/-! ## STACK's start (R201 to R205) -/

/-- Check 4 of R84 for STACK. -/
def stackFieldsOk (c : Cmd) : Bool := bits c.p3 63 24 == 0 && localWord c.p1 && localWord c.p2 && localWord c.p4

/-- The checks of R201 before the descriptor. -/
def Mach.stackCheck (m : Mach) (p n : Nat) (c : Cmd) : Option Nat :=
  if !(c.p1 % 64 == 0 && m.inStack n c.p1 && c.p2 % 32 == 0 && m.inStack n c.p2 && (c.p4 == 0 || (c.p4 % 32 == 0 && m.inStack n c.p4))) then some stAddrInvalid
  else if !(m.granted p false c.p1 64 && m.granted p false c.p2 (c.p3 * 32) && (c.p4 == 0 || m.allowed p true c.p4 c.p3)) then some stDescRights
  else none

/-- A work item that starts with a status of its own, or waits. -/
def Mach.newItem (m : Mach) (c : Issued) (d : SeqDesc) (f : PageFmt) (k : Nat) : Mach × Item :=
  let a := c.cmd.p2 + k * 32
  let m := (m.mirrorAll false c.part (some c.id) a 32).2
  let b := m.read false a 32
  let bad := m.readUe false a 32
  let m := m.afterRead c.part 1 a 32
  let rows := field b 29 1
  let fmtBad := field b 14 2 != 0 || field b 22 2 != 0 || field b 28 1 / 8 != 0 || field b 30 2 != 0 || rows == 0 || decide (8 < rows)
  let st := if bad then some stPoison else if fmtBad then some stItemFormat else none
  let it : Item :=
    { id := m.nextItem, cmdId := c.id, idx := k, part := c.part, stack := c.queue - 8, desc := d, fmt := f, inA := field b 0 6, session := field b 6 2
      outA := field b 8 6, root := field b 16 6, len := field b 24 4, shed := field b 28 1 % 8, rows := rows, pages := [], page := 0, work := 0
      phase := if st.isSome then .finished else .waiting, failed := st, degraded := false, stopped := false, acc := []
      asked := 0, inB := [], blank := false, popped := false, unheldPop := false }
  let m := { m with items := m.items ++ [it], nextItem := m.nextItem + 1 }
  (if bad then (m.postUe c.part (some c.id) a a).reactStep c.part else m, it)

/-- All items of a command have finished: its result (R103, R206). -/
def Mach.stackSettle (m : Mach) (cmdId : Nat) : Mach :=
  match m.issuedOf cmdId with
  | none => { m with items := m.items.filter (fun it => !(it.cmdId == cmdId && it.phase == .finished)) }
  | some c =>
    let mine := m.items.filter (fun it => it.cmdId == cmdId)
    if mine.all (fun it => it.phase == .finished) && c.result.isNone then
      let sts := mine.map (fun it => match it.failed with | some s => s | none => if it.degraded then stDegraded else stOk)
      let m := { m with items := m.items.filter (fun it => it.cmdId != cmdId) }
      m.setIssued { c with result := some (itemsStatus sts), progress := itemsDone sts, items := c.cmd.p4, itemSt := sts.map some, degraded := sts.any (· == stDegraded) }
    else m

/-- A STACK command starts: its descriptor, its page format, the stack, then its items (R201). -/
def Mach.stackStart (m : Mach) (c : Issued) : Mach :=
  let p := c.part
  let n := c.queue - 8
  let id := some c.id
  let fails (m : Mach) (st : Nat) : Mach := m.setIssued { (m.issuedOf c.id).getD c with result := some st }
  if c.cmd.p3 = 0 then m.setIssued { c with result := some stEmpty, items := c.cmd.p4 }
  else match m.stackCheck p n c.cmd with
    | some st => fails m st
    | none =>
      let m := (m.mirrorAll false p id c.cmd.p1 64).2
      let bad := m.readUe false c.cmd.p1 64
      let b := m.read false c.cmd.p1 64
      let m := m.afterRead p 1 c.cmd.p1 64
      if bad && m.rd .STACK_ID_STATE n != 0 then fails m stBankOffline
      else if bad then fails (m.postUe p id (m.ueAt false c.cmd.p1 64) (m.ueAt false c.cmd.p1 64)) stUe
      else match seqDescOf b with
        | none => fails m stSeqFormat
        | some (d, pf) =>
          if !(pf % 64 == 0 && m.inStack n pf) then fails m stSeqFormat
          else
            let m := (m.mirrorAll false p id pf 64).2
            let badF := m.readUe false pf 64
            let fb := m.read false pf 64
            let m := m.afterRead p 1 pf 64
            if badF && m.rd .STACK_ID_STATE n != 0 then fails m stBankOffline
            else if badF then fails (m.postUe p id (m.ueAt false pf 64) (m.ueAt false pf 64)) stUe
            else match pageFmtOf d.kind fb with
              | none => fails m stSeqFormat
              | some f =>
                if m.rd .STACK_ID_STATE n ≠ 0 then fails m stBankOffline
                else ((List.range c.cmd.p3).foldl (fun m k => (m.newItem c d f k).1) m).stackSettle c.id

/-! ## Items (R204, R205, R240) -/

/-- Page-list entries an item uses: index and value, from DRAM. -/
def Mach.itemEntries (m : Mach) (it : Item) : List (Nat × Nat) :=
  let u := usedEntries it.desc it.fmt it.len
  let first := if it.desc.kind = 3 then it.len / it.fmt.tpp else 0
  if it.desc.kind = 3 ∧ it.desc.maxPages ≤ first then []
  else (List.range u).map (fun i => (first + i, m.readNat true (it.root + 4 * (first + i)) 4))

/-- Pages that an item names. -/
def Mach.itemPages (m : Mach) (it : Item) : List Nat :=
  ((m.itemEntries it).filter (fun e => entryValid e.2 && !entryFar e.2 && !entryBad e.2)).map (fun e => entryPage e.2)

/-- Addresses of IN and OUT (R203). -/
def Mach.itemPlace (m : Mach) (it : Item) (a n : Nat) (out : Bool) : Bool :=
  a % 32 == 0 && m.rangeOk a n && (m.region a == 2 || (m.inStacks a && (out || stackOf a == it.stack)))

/-- An earlier APPEND of the session in the same command failed its pop, and the session did not come to be held by it (R251). -/
def Mach.poppedOut (m : Mach) (it : Item) : Bool :=
  m.items.any (fun x => x.cmdId == it.cmdId && decide (x.idx < it.idx) && x.session == it.session && x.unheldPop)

/-- The checks of R204 that come before the page list is read: places, then the rights to IN, OUT, ROOT and the list entries used. -/
def Mach.itemForm (m : Mach) (it : Item) : Option Nat :=
  let p := it.part
  let f := it.fmt
  let n := inLen it.desc f it.rows
  let o := outLen it.desc f it.rows it.len
  let es := m.itemEntries it
  if !(m.itemPlace it it.inA n false && m.itemPlace it it.outA o true && it.root % 64 == 0 && m.inBankView it.stack it.root) then some stAddrInvalid
  else if !(m.granted p false it.inA n && m.allowed p true it.outA o && m.granted p false it.root 4 && es.all (fun e => m.granted p false (it.root + 4 * e.1) 4)) then some stDescRights
  else none

/-- The checks of R204 from the second on, and of R240: the first failing status. -/
def Mach.itemCheck (m : Mach) (it : Item) : Option Nat :=
  let p := it.part
  let f := it.fmt
  let k := it.desc.kind
  let es := m.itemEntries it
  let pages := m.itemPages it
  let empty := it.len = 0 ∧ k ≠ 3
  let slot := it.len % f.tpp
  if (m.itemForm it).isSome then m.itemForm it
  else if !pages.all (fun g => m.allowed p false (pageAddr it.stack g) 8192 && (k != 3 || m.allowed p true (pageAddr it.stack g) 8192)) then some stDescRights
  else if pages.any (fun g => m.bankOffline it.stack (pageBank g)) then some stBankOffline
  else if k = 3 ∧ it.rows ≠ 1 then some stItemFormat
  else if k = 2 ∧ (f.rowspp < it.len ∨ 1536 < it.rows * f.kt) then some stItemFormat
  else if empty then some stEmpty
  else if k = 3 ∧ it.desc.maxPages ≤ it.len / f.tpp then some stListFull
  else if k ≠ 2 ∧ !m.inRange p it.session then some stItemSession
  else if es.any (fun e => entryBad e.2) || (k != 3 && es.any (fun e => e.2 == 0)) then some stPageCheck
  else if es.any (fun e => entryValid e.2 && entryFar e.2) then some stPageFar
  else if k = 3 ∧ ((m.sess it.session).state = 3 ∨ m.poppedOut it) then some stPoolEmpty
  else if k = 3 ∧ slot ≠ 0 ∧ es.any (fun e => e.2 == 0) then some stPageCheck
  else none

/-- Banks an item still needs, from the page it is on. -/
def Mach.itemBanks (m : Mach) (it : Item) : List Nat :=
  match it.phase with
  | .finished => []
  | .waiting => (m.itemPages it).map pageBank
  | _ => (it.pages.drop it.page).map pageBank

/-- No earlier unfinished item needs bank b (R205), nor is an earlier append of the same list unfinished (R254). -/
def Mach.itemTurn (m : Mach) (it : Item) (b : Nat) : Bool :=
  (m.items.takeWhile (fun x => x.id != it.id)).all (fun x =>
    x.stack != it.stack || x.phase == .finished || !((m.itemBanks x).contains b || (x.desc.kind == 3 && x.root == it.root)))

/-- Bank b of stack n can be taken. -/
def Mach.bankOpen (m : Mach) (n b : Nat) : Bool :=
  let k := m.bank n b
  k.occupant.isNone && k.phase == .idle && k.sending.isNone && !k.goingOffline && m.running (quadDom n (b / 128))

/-- An item ends: with a status, or with success. -/
def Mach.finishItem (m : Mach) (it : Item) (st : Option Nat) : Mach :=
  let m := m.setItem { it with phase := .finished, failed := st }
  let m := if st = some stPoison then m.reactItem it.part it.session else m
  m.stackSettle it.cmdId

/-- The record of an item's uncorrectable error: ADDR holds its SESSION (R344). -/
def Mach.itemUe (m : Mach) (it : Item) (a : Nat) : Mach := m.postUe it.part (some it.cmdId) a it.session

/-- An item that may read its page list has an uncorrectable entry in it. -/
def Mach.listUe (m : Mach) (it : Item) : Option Nat :=
  if (m.itemForm it).isNone then
    ((m.itemEntries it).find? (fun e => m.readUe true (it.root + 4 * e.1) 4)).map (fun e => it.root + 4 * e.1)
  else none

/-- Items of stack n in flight. -/
def Mach.inFlight (m : Mach) (n : Nat) : Nat := (m.items.filter (fun it => it.stack == n && it.phase != .waiting && it.phase != .finished)).length

/-- An APPEND that will pop a page when it is reached. -/
def Mach.willPop (m : Mach) (it : Item) : Bool :=
  it.phase == .waiting && it.desc.kind == 3 && (m.itemEntries it).any (fun e => e.2 == 0) && (m.listUe it).isNone && (m.itemCheck it).isNone

/-- Pools pop in the order in which the items that need them are reached (R233): no earlier waiting APPEND of the partition on the stack is to pop. -/
def Mach.popTurn (m : Mach) (it : Item) : Bool :=
  !m.willPop it || (m.items.takeWhile (fun x => x.id != it.id)).all (fun x => x.stack != it.stack || x.part != it.part || !m.willPop x)

/-- A waiting item can be reached, its first bank (if it names one that its checks let it take) being `free`. -/
def Mach.reachable (m : Mach) (it : Item) (free : Nat → Bool) : Bool :=
  it.phase == .waiting && decide (m.inFlight it.stack < 256) && m.itemTurn it 512 && m.popTurn it &&
    (match (m.itemPages it).head? with
     | some g => (m.itemCheck it).isSome || (m.itemTurn it (pageBank g) && free (pageBank g))
     | none => true)

/-- The first waiting item of a kind on stack n that can be reached, in the order of R205. -/
def Mach.nextItem? (m : Mach) (n kind : Nat) : Option Item :=
  m.items.find? (fun it => it.stack == n && it.desc.kind == kind && m.reachable it (m.bankOpen n))

/-- An item takes bank b: the period that starts there is its start window (R210). -/
def Mach.occupy (m : Mach) (it : Item) (b : Nat) : Mach :=
  let k := m.bank it.stack b
  m.setBank it.stack b { k with occupant := some it.id, phase := .window, staged := if k.staged = some it.id then none else k.staged, throttled := (m.stack it.stack).throt }

/-- IN read through the shared cache: the bytes, or the address of an uncorrectable unit. -/
def Mach.readIn (m : Mach) (it : Item) (a n : Nat) : Mach × Except Nat Bytes :=
  let m := (m.mirrorAll false it.part (some it.cmdId) a n).2
  match (pieceStarts 32 a n).find? (fun u => m.readUe false u (min 32 (a + n - u))) with
  | some u => (m.afterRead it.part 1 a n, .error u)
  | none => (m.afterRead it.part 1 a n, .ok (m.read false a n))

/-- An ATTEND or PGEMV item begins on its first bank. -/
def Mach.beginItem (m : Mach) (it : Item) : Mach :=
  match m.listUe it with
  | some a => ((m.noteRead true a 4).itemUe it a).finishItem it (some stPoison)
  | none =>
    match m.itemCheck it with
    | some st => m.finishItem it (some st)
    | none =>
      let pages := m.itemPages it
      let b := pageBank (pages.headD 0)
      let it := { it with pages := pages, page := 0, phase := .onBank b }
      let it := { it with work := pageCost it 0 false }
      if it.desc.kind = 1 then
        match m.readIn it it.inA (inLen it.desc it.fmt it.rows) with
        | (m, .ok bs) => (m.setItem { it with acc := startRows it bs }).occupy it b
        | (m, .error a) => ((m.itemUe it a).setItem { it with failed := some stPoison, acc := startRows it [] }).occupy it b
      else (m.setItem { it with acc := startRows it [] }).occupy it b

/-- ATTEND_ITEM and PGEMV_ITEM: the first item of the kind that can be reached begins. -/
def itemBegin (n kind : Nat) (m : Mach) : Mach :=
  match m.nextItem? n kind with
  | some it => m.beginItem it
  | none => m

/-- One page folded into its item; a failure leaves the item in its plan (R206). -/
def Mach.foldPage (m : Mach) (it : Item) : Mach × Item :=
  if it.failed.isSome then (m, it)
  else
    let a := pageAddr it.stack (nthD it.pages it.page 0)
    let p := it.part
    let us := if it.desc.kind = 1 then kvUnits it it.page a else weightUnits it a
    let m := (m.touchUnits p (some it.cmdId) us).2
    let inp := if it.desc.kind = 1 then (m, Except.ok [])
      else (List.range it.rows).foldl (fun (r : Mach × Except Nat (List Bytes)) i =>
        match r.2 with
        | .ok l => (match r.1.readIn it (it.inA + i * (it.desc.kpages * it.fmt.kt) + it.page * it.fmt.kt) it.fmt.kt with
          | (m, .ok b) => (m, .ok (l ++ [b]))
          | (m, .error e) => (m, .error e))
        | .error e => (r.1, .error e)) (m, .ok [])
    match inp.2 with
    | .error u => (inp.1.itemUe it u, { it with failed := some stPoison })
    | .ok x =>
      let m := inp.1
      match (if it.desc.kind = 1 then m.foldKv it it.page a else m.foldWeights it a x) with
      | .ok acc shed => (if shed then m.meetUe (some it.cmdId) p it.session 1 it.stack fkShedServe else m, { it with acc := acc, degraded := it.degraded || shed })
      | .poison u => (m.itemUe it u, { it with failed := some stPoison })
      | .mismatch => (m, { it with failed := some stPageCheck })

/-- The end of an item's last page: OUT is written in one write, and the item finishes. -/
def Mach.endItem (m : Mach) (it : Item) : Mach :=
  match it.failed with
  | some st => m.finishItem it (some st)
  | none =>
    let w := m.write it.part true it.outA (itemOutput it)
    if w.2 then (w.1.itemUe it it.outA).finishItem it (some stPoison) else w.1.finishItem it none

/-- A bank is left by its item. -/
def Mach.leaveBank (m : Mach) (n b : Nat) (sending : Option Nat) : Mach :=
  m.setBank n b { m.bank n b with occupant := none, phase := .idle, sending := sending }

/-- A bank that was to go offline at this yield point does so; the item on it, already started, is to end with ST_POISON and keeps its plan (R206, R338). -/
def Mach.offlineYield (m : Mach) (n b : Nat) : Mach :=
  let k := m.bank n b
  if k.goingOffline then
    let m := ((m.setBank n b { k with goingOffline := false }).setB .STACK_OFFLINE_BANKS (b % 64) n (b / 64)).retired n
    match k.occupant.bind m.itemOf with
    | some it => if it.failed.isNone then (m.itemUe it (pageAddr n (nthD it.pages it.page 0))).setItem { it with failed := some stPoison } else m
    | none => m
  else m

/-- An item that a reset ended stops at a yield point of its bank: a partition reset leaves it its plan without work (R207), a reset of its sequencer takes it off the bank (R402). -/
def Mach.resetYield (m : Mach) (n b : Nat) : Mach :=
  match (m.bank n b).occupant.bind m.itemOf with
  | some it =>
    if it.failed != some stReset then m
    else if (m.issuedOf it.cmdId).isSome then (m.leaveBank n b none).finishItem it (some stReset)
    else m.setItem { it with stopped := true }
  | none => m

/-- What a yield point of a bank does before its next segment: the end of a segment, also one that a refresh slot forces (R211). -/
def Mach.yieldPoint (m : Mach) (n b : Nat) : Mach := (m.offlineYield n b).resetYield n b

/-! ## APPEND (R211, R248, R251) -/

/-- The page an APPEND writes (R248, R251): the page of its list entry once its trailer allows the slot, or one popped from the pool; the page, whether its trailer is blank, and whether it was
popped. -/
def Mach.appendPage (m : Mach) (n : Nat) (it : Item) : Mach × Except Nat (Nat × Bool × Bool) :=
  let i := it.len / it.fmt.tpp
  let slot := it.len % it.fmt.tpp
  let e := m.readNat true (it.root + 4 * i) 4
  if entryValid e then
    let tr := pageAddr n (entryPage e) + 7680
    let m := (m.touchUnits it.part (some it.cmdId) ((List.range 16).map (fun u => tr + 32 * u))).2
    let t := m.read true tr 512
    if m.readUe true tr 512 then (m.itemUe it tr, .error stPoison)
    else if field t 480 1 < slot || !((trailerBlank t && slot == 0) || trailerOk it.fmt it.session i it.root t) then (m, .error stPageCheck)
    else (m, .ok (entryPage e, trailerBlank t, false))
  else match m.pop it.part n it.desc.useRes (some it.cmdId) it.session with
    | (m, .page g) => (m, .ok (g, true, true))
    | (m, .empty) => (m.poolHold it.session, .error stPoolEmpty)
    | (m, .poison) => (m, .error stPoison)

/-- What an APPEND writes to its page: the row, the fill, and on a blank page the trailer's other fields. -/
def appendPageWrites (n : Nat) (it : Item) (bs : Bytes) (g : Nat) (blank : Bool) : List (Nat × Bytes) :=
  let a := pageAddr n g
  let slot := it.len % it.fmt.tpp
  appendWrites it.fmt a slot bs ++ [(a + 7680 + 480, toBytes 1 (slot + 1))] ++
    (if blank then [(a + 7680 + 481, toBytes 1 it.fmt.fmtid ++ toBytes 2 it.session ++ toBytes 4 (it.len / it.fmt.tpp)), (a + 7680 + 488, toBytes 4 (bits it.root 34 6))] else [])

/-- Everything that an APPEND writes to DRAM in its write step: its page, and the list entry of a popped one. -/
def appendStep (n : Nat) (it : Item) : List (Nat × Bytes) :=
  let g := nthD it.pages 0 0
  appendPageWrites n it it.inB g it.blank ++ (if it.popped then [(it.root + 4 * (it.len / it.fmt.tpp), toBytes 4 (pageEntry g))] else [])

/-- Engine cycles of an APPEND's write step (R246): 24 more for each granule of its page that it writes for the first time (R220). -/
def Mach.appendCost (m : Mach) (n : Nat) (it : Item) : Nat :=
  let g0 := n * 2 ^ 25 + pageGranule (nthD it.pages 0 0)
  let a := pageAddr n (nthD it.pages 0 0)
  let hit := (List.range 8).filter (fun k => (appendPageWrites n it it.inB (nthD it.pages 0 0) it.blank).any (fun w => (w.1 - a) / 1024 == k))
  2 * (it.fmt.nk + it.fmt.nv + 3) + 24 + 24 * (hit.filter (fun k => !nget (fun _ => false) m.written (g0 + k))).length

/-- The write step of an APPEND on its page's bank, and its end: the page and a popped page's entry, then the record to OUT. One that a reset stopped before the step writes nothing, one that it
stopped in the step writes no output (R207). -/
def Mach.appendEnds (m : Mach) (n : Nat) (it : Item) : Mach :=
  if it.stopped || it.failed.any (· != stReset) then m.finishItem it it.failed
  else
    let g := nthD it.pages 0 0
    let w := (appendStep n it).foldl (fun (r : Mach × Bool) x => let y := r.1.writeDram x.1 x.2; (y.1, r.2 || y.2)) (m, false)
    if it.failed.isSome then w.1.finishItem it it.failed
    else
      let o := w.1.write it.part true it.outA (appendRecord (pageEntry g) (it.len / it.fmt.tpp) (it.len % it.fmt.tpp + 1) it.popped)
      if w.2 || o.2 then (o.1.itemUe it (pageAddr n g)).finishItem it (some stPoison) else o.1.finishItem it none

/-- An APPEND that has its input and its page: it takes the page's bank where that is `free`, and else waits for it; the answer names the bank it took. -/
def Mach.placeAppend (m : Mach) (n : Nat) (it : Item) (bs : Bytes) (g : Nat) (blank popped : Bool) (free : Mach → Nat → Bool) : Mach × Option Nat :=
  let b := pageBank g
  let it := { it with pages := [g], page := 0, inB := bs, blank := blank, popped := popped }
  let it := { it with work := m.appendCost n it }
  if m.itemTurn it b && free m b then ((m.setItem { it with phase := .onBank b }).occupy it b, some b)
  else (m.setItem { it with phase := .staged b }, none)

/-- An APPEND is reached: its checks, its input and its page. The answer names the bank it took. -/
def Mach.beginAppend (m : Mach) (n : Nat) (it : Item) (free : Mach → Nat → Bool) : Mach × Option Nat :=
  match m.listUe it with
  | some a => (((m.noteRead true a 4).itemUe it a).finishItem it (some stPoison), none)
  | none =>
    match m.itemCheck it with
    | some st => (m.finishItem it (some st), none)
    | none =>
      match m.readIn it it.inA (inLen it.desc it.fmt it.rows) with
      | (m, .error a) => ((m.itemUe it a).finishItem it (some stPoison), none)
      | (m, .ok bs) =>
        match m.appendPage n it with
        | (m, .error st) => (m.finishItem { it with unheldPop := st == stPoolEmpty && (m.sess it.session).state != 3 } (some st), none)
        | (m, .ok (g, blank, popped)) => m.placeAppend n it bs g blank popped free

/-! ## Sequence work (R205, R210, R211) -/

/-- The item that is next on bank b in the order of R205. -/
def Mach.nextOn (m : Mach) (n b : Nat) : Option Item := m.items.find? (fun x => x.stack == n && (m.itemBanks x).contains b)

/-- The work of an item's page on bank b is over: the page is folded, and the item ends, goes on in the same bank, or sends its record to the next. -/
def Mach.pageEnds (m : Mach) (n b : Nat) (it : Item) : Mach :=
  let r := m.foldPage it
  let it := { r.2 with page := r.2.page + 1 }
  let m := r.1.setBank n b { r.1.bank n b with engineRow := some (nthD it.pages (it.page - 1) 0 % 8192 * 4 + 3) }
  match it.pages[it.page]? with
  | none => (m.leaveBank n b none).endItem it
  | some g =>
    if pageBank g = b then m.setItem { it with work := pageCost it it.page false }
    else ({ m.setItem { it with phase := .sending b, work := pageCost it it.page true, asked := m.nextItem } with nextItem := m.nextItem + 1 } : Mach).leaveBank n b (some it.id)

/-- An item takes a bank at which it is staged; an uncorrectable error in its record there fails it (R254). -/
def Mach.takeBank (m : Mach) (n b : Nat) (it : Item) : Mach :=
  let k := m.bank n b
  let own := k.staged == some it.id
  let bad := own && k.scratchWrong && it.failed.isNone
  let m := if bad then m.itemUe it (pageAddr n (nthD it.pages it.page 0)) else m
  let m := if own then m.setBank n b { m.bank n b with scratchWrong := false } else m
  (m.setItem { it with phase := .onBank b, failed := if bad then some stPoison else it.failed }).occupy it b

/-- Bank b, in a segment that its item's work has left, is taken by the item that is next on it, if that waits for it (R210). -/
def Mach.continueBank (m : Mach) (n b : Nat) : Option Mach :=
  let k := m.bank n b
  let here (x : Nat) : Bool := x == b
  if k.sending.isSome || k.goingOffline || !m.running (quadDom n (b / 128)) then none
  else match m.nextOn n b with
    | none => none
    | some it =>
      match it.phase with
      | .staged b' => if b' = b ∧ m.itemTurn it b then some (m.takeBank n b it) else none
      | .waiting =>
        if m.reachable it here then some (if it.desc.kind = 3 then (m.beginAppend n it (fun _ x => x == b)).1 else m.beginItem it) else none
      | _ => none

/-- `budget` cycles of a segment of bank b. A page's work runs as far as they go; a write step runs only where it ends within them or begins with the segment; the bank's next item continues in the
same segment. -/
def seqWork (n b : Nat) : Nat → Nat → Mach → Mach
  | 0, _, m => m
  | k + 1, budget, m =>
    match (m.bank n b).occupant with
    | none => if budget = 0 then m else (match m.continueBank n b with | some m' => seqWork n b k budget m' | none => m)
    | some id =>
      match m.itemOf id with
      | none => seqWork n b k budget (m.leaveBank n b none)
      | some it =>
        if it.desc.kind = 3 then
          if it.work ≤ budget ∨ budget = 64 then
            seqWork n b k (budget - it.work) (((m.setBank n b { m.bank n b with engineRow := some (nthD it.pages 0 0 % 8192 * 4 + 3) }).leaveBank n b none).appendEnds n it)
          else m
        else if budget < it.work then m.setItem { it with work := it.work - budget }
        else seqWork n b k (budget - it.work) (m.pageEnds n b it)

/-- The bank after a segment: its window, with the throttle plan in force from here, or idle again. -/
def Mach.afterSegment (m : Mach) (n b : Nat) : Mach :=
  let k := m.bank n b
  m.setBank n b { k with phase := if k.occupant.isSome then .window else .idle, left := 0, throttled := (m.stack n).throt }

/-- A bank's segment ends after `budget` of its cycles (R211): what they did, and the yield point. -/
def Mach.segmentEnd (m : Mach) (n b budget : Nat) : Mach := ((seqWork n b 256 budget m).yieldPoint n b).afterSegment n b

/-- The end of a segment (R211): a yield point. -/
def bankYield (n b : Nat) (m : Mach) : Mach :=
  let k := m.bank n b
  if k.phase != .segment || (!m.running (quadDom n (b / 128)) && (k.occupant.bind m.itemOf).isSome) then m else m.segmentEnd n b k.left

/-- APPEND_ITEM: the first APPEND that can be reached; where it takes its page's bank at once, its start window and its write step follow (log entry 132). -/
def appendItem (n : Nat) (m : Mach) : Mach :=
  match m.nextItem? n 3 with
  | none => m
  | some it =>
    match m.beginAppend n it (fun m b => m.bankOpen n b) with
    | (m, some b) => m.segmentEnd n b 64
    | (m, none) => m

/-- Bytes of an item resident in a bank's scratch (R244). -/
def residentOf (it : Item) : Nat := if it.desc.kind = 1 then it.rows * (32 + it.fmt.dim) else it.rows * it.fmt.kt

/-- Bank at which an item's record travels or is held. -/
def ItemPhase.sentFrom : ItemPhase → Option Nat
  | .sending b => some b
  | _ => none

/-- Bank at which an item's record is staged. -/
def ItemPhase.stagedAt : ItemPhase → Option Nat
  | .staged b => some b
  | _ => none

/-- The record of an item goes straight to the bank of its next page: the item is the next there, and the bank is free. -/
def Mach.direct (m : Mach) (n : Nat) (it : Item) : Bool :=
  let b := pageBank (nthD it.pages it.page 0)
  (m.nextOn n b).any (fun x => x.id == it.id) && (m.bank n b).occupant.isNone && (m.bank n b).phase == .idle

/-- A travelling record of stack n is loaded or staged at its next bank (R244). -/
def Mach.mayArrive (m : Mach) (n : Nat) (it : Item) : Bool :=
  let b := pageBank (nthD it.pages it.page 0)
  let k := m.bank n b
  let resident := match k.occupant.bind m.itemOf with | some x => residentOf x | none => (match m.nextOn n b with | some x => residentOf x | none => 0)
  it.stack == n && it.phase.sentFrom.isSome && (m.direct n it || (k.staged.isNone && decide (resident + recordLen it.desc it.fmt it.rows it.len ≤ 2048)))

/-- A running item of stack n takes the bank of its next page. -/
def Mach.mayTake (m : Mach) (n : Nat) (it : Item) : Bool := it.stack == n && it.phase.stagedAt.any (fun b => m.itemTurn it b && m.bankOpen n b)

/-- The record of stack n that may arrive and asked first (R208). -/
def Mach.firstRecord (m : Mach) (n : Nat) : Option Item :=
  (m.items.filter (m.mayArrive n)).foldl (fun (r : Option Item) x => match r with | some y => if x.asked < y.asked then some x else some y | none => some x) none

/-- A record that travels arrives at its next bank: loaded, staged, or held at its sender (R244). -/
def recordArrival (n : Nat) (m : Mach) : Mach :=
  match m.firstRecord n with
  | none => m
  | some it =>
    let b' := pageBank (nthD it.pages it.page 0)
    let m := match it.phase.sentFrom with
      | some b => m.setBank n b { m.bank n b with sending := none }
      | none => m
    let k := m.bank n b'
    (m.setItem { it with phase := .staged b' }).setBank n b' (if m.direct n it then k else { k with staged := some it.id })

/-- A running item takes the bank of its next page (R210). -/
def itemBankTake (n : Nat) (m : Mach) : Mach :=
  match m.items.find? (m.mayTake n) with
  | none => m
  | some it =>
    match it.phase.stagedAt with
    | some b => m.takeBank n b it
    | none => m

/-! ## Ordinary accesses (R212, R314) -/

/-- The access buffer of the bank of an address holds its row (R197). -/
def Mach.openRow (m : Mach) (a : Nat) : Mach :=
  match m.canon a with
  | some c => m.setBank (cStack c) (cBank c) { m.bank (cStack c) (cBank c) with accessRow := some (cGranule c % 65536 / 2) }
  | none => m

/-- An access is served: read data and poison go out, write data is stored (R314). -/
def Mach.serveAccess (m : Mach) (w : BankAccess) : Mach :=
  let m := m.openRow w.addr
  match w.data with
  | none =>
    let m := (m.mirrorAll false 0 none w.addr w.len).2
    let bad := m.readUe false w.addr w.len
    let bs := m.read false w.addr w.len
    let m := m.afterRead 0 1 w.addr w.len
    let m := if bad then (m.postUnits false 0 none w.addr w.len).inc .UCIE_POISON_COUNT else m
    m.emit (.cxlData bs bad)
  | some bs =>
    let r := m.write 0 true w.addr bs
    (if r.2 then r.1.postUe 0 none (w.addr / 32 * 32) (w.addr / 32 * 32) else r.1).emit .cxlDone

/-- Accesses taken from a queue while they fit in the cycles left; answers those that wait on. The order is kept: one that does not fit stops its class and the next. -/
def serveWaits : List BankAccess → Nat → Mach → Mach × List BankAccess
  | [], _, m => (m, [])
  | w :: rest, left, m =>
    if ceilDiv w.len 32 ≤ left then serveWaits rest (left - ceilDiv w.len 32) (m.serveAccess w)
    else (m, w :: rest)

/-- A window or idle period starts (R210, R212): waiting accesses are served in class order; in an occupied bank a segment follows. -/
def bankService (n b : Nat) (m : Mach) : Mach :=
  let k := m.bank n b
  let occupied := k.occupant.isSome
  if k.phase == .segment then m
  else
    let budget := if occupied && k.throttled then 80 else 8
    let order := k.waits.filter (fun w => !w.hostClass) ++ k.waits.filter (·.hostClass)
    let r := serveWaits order budget m
    let step := if occupied then (if k.throttled then 144 else 72) else 8
    let late := if occupied then r.2.find? (fun w => w.hostClass && !w.deferred) else none
    let left := r.2.map (fun w => { w with age := w.age + step, deferred := w.deferred || late == some w })
    let m := (order.take (order.length - r.2.length)).foldl (fun m w => m.wr .STACK_ACC_HOLDMAX (max (m.rd .STACK_ACC_HOLDMAX n) (min w.age 0xFFFF)) n) r.1
    let m := if late.isSome then m.inc .STACK_ACC_HOSTDEFER 1 n else m
    let m := drainTrace 4096 false (m.setBank n b { m.bank n b with waits := left, phase := if occupied then .window else .idle })
    if occupied then m.setBank n b { m.bank n b with phase := .segment, left := 64 } else m

/-- An ordinary access of the host class arrives at its bank: served at once where the bank is free, else it waits (R212). -/
def Mach.hostAccess (m : Mach) (w : BankAccess) : Mach :=
  let c := (m.canon w.addr).getD bankBase
  let n := cStack c
  let b := cBank c
  let k := m.bank n b
  if k.occupant.isNone && k.phase == .idle && k.waits.isEmpty then m.serveAccess w
  else m.setBank n b { k with waits := k.waits ++ [w] }

/-- A running segment ends at a refresh slot; how many of its cycles are past is a free value (log entry 17). -/
def Mach.cutSegment (m : Mach) (n b : Nat) : Mach :=
  if (m.bank n b).phase == .segment then m.draw.2.segmentEnd n b (m.draw.1 % max 1 (m.bank n b).left) else m

/-- A bank in a refresh slot: both row buffers are closed, and its accesses wait on (R197, R214). -/
def Bank.slotted (k : Bank) : Bank :=
  { k with phase := .slot, engineRow := none, accessRow := none, waits := k.waits.map (fun w => { w with age := w.age + 112 }) }

/-- A refresh slot of quadrant q of stack n opens (R214). A running segment ends there, and its bank keeps the work it has left. -/
def refreshSlot (n q : Nat) (m : Mach) : Mach :=
  (List.range 128).foldl (fun m i =>
    let b := 128 * q + i
    let m := m.cutSegment n b
    m.setBank n b (m.bank n b).slotted) m

/-! ## Temperature flags (R45, R223, R224) -/

/-- A stack's DRAM crosses 85 °C: its calendar changes (R45). -/
def refreshCalendar (n : Nat) (hot : Bool) (m : Mach) : Mach := m.setStack n { m.stack n with hot := hot }

/-- Issued commands that use an engine of stack n: those of its SE queue. -/
def usesEngine (n : Nat) (c : Issued) : Bool := c.queue == 8 + n && (c.cmd.opcode == 2 || c.cmd.opcode == 0xA)

/-- Partitions with an issued command on stack n's queue. -/
def Mach.throttleOut (m : Mach) (n : Nat) : Mach := m.takeOutWhere causeThrottle (fun c => usesEngine n c && c.result.isNone)

/-- The throttle flag sets (R224): the banks lengthen their windows at their next yield points. -/
def throttleOnset (n : Nat) (m : Mach) : Mach :=
  if (m.stack n).throt then m
  else
    let m := m.setStack n { m.stack n with throt := true }
    let m := (m.inc .STACK_TEMP_COUNT 1 n).post ⟨0, 0, 0, 9, 2 + n, fkThrottle⟩
    m.throttleOut n

/-- The throttle flag clears (R223). -/
def throttleClear (n : Nat) (m : Mach) : Mach := m.setStack n { m.stack n with throt := false }

end Sys2Proof.Machine
end

