-- ==== Sys2Proof/Machine/Power.lean ====
section
/-! DEFINITION. Clock domains under POWER, the device states, Dawn, temperature conversions, the analogue trips and the power guard (R376 to R392). -/
namespace Sys2Proof.Machine

/-! ## Numbers of output signals and messages -/

/-- Pins the block drives: 0 THERMTRIP_N, 1 PWR_EN_CORE_A, 2 PWR_EN_CORE_B, 3 PWR_EN_SRAM, lasers of port n 16 + n (Links), 32 + e FAR_PERST_N of expander e. -/
def pinThermtrip : Nat := 0
def pinPwrEn (k : Nat) : Nat := 1 + k
def pinFarPerst (e : Nat) : Nat := 32 + e

/-- Messages the block answers, by kind. -/
def msgIdentity : Nat := 1
def msgTemperature : Nat := 2
def msgMailbox : Nat := 3
def msgMemoryDevice : Nat := 4
def msgDoe : Nat := 5
def msgSpdm : Nat := 6

/-! ## POWER (R376, R377) -/

def powerFieldsOk (c : Cmd) : Bool :=
  (c.p1 == 1 || c.p1 == 2) && bits c.p2 15 4 == 0 && bits c.p2 63 32 == 0 && bits c.p3 63 48 == 0 && c.p4 == 0

/-- Domains that a POWER command selects: cores in logical order, quadrants, ports. -/
def Mach.powerDoms (m : Mach) (p : Nat) (c : Cmd) : List Nat :=
  let groups := (List.range 4).filter (bit c.p2)
  let cores := ((List.range 176).filter (fun l => groups.any (fun g => (m.groupLogical p g).contains l))).filterMap m.physOf
  cores ++ (setBits 48 c.p3).map (192 + ·) ++ (setBits 16 (bits c.p2 31 16)).map portDom

/-- A stop of one domain: whether it counts as acted on, and the state. -/
def Mach.powerStopOne (m : Mach) (p d : Nat) : Mach × Bool :=
  if d < 192 then (if (m.dom d).st = 0 then (m, true) else (m.stopOrWait d, true))
  else if d < 240 then (m.voteStop p d, true)
  else if m.relayed (d - 240) then (m.inc .PWR_REFUSE_COUNT 1 3, false)
  else (m.voteStop p d, true)

/-- A POWER command starts: its domains in order, with PROGRESS. -/
def Mach.powerStart (m : Mach) (c : Issued) : Mach :=
  let ds := m.powerDoms c.part c.cmd
  let fin (m : Mach) (st n : Nat) : Mach := m.setIssued { (m.issuedOf c.id).getD c with result := some st, progress := n }
  if ds.isEmpty then fin m stEmpty 0
  else if c.cmd.p1 = 1 then fin (ds.foldl (fun m d => m.startDom d) m) stOk ds.length
  else
    let r := ds.foldl (fun (r : Mach × Nat) d => let x := r.1.powerStopOne c.part d; (x.1, r.2 + b2n x.2)) (m, 0)
    fin r.1 stOk r.2

/-! ## Wakes and the state in force (R381) -/

/-- The state whose rules hold: the target while entry runs, else the current one. -/
def Mach.stateInForce (m : Mach) : Nat := if m.power.entering then m.power.target else m.rd .PWR_STATE_CUR

/-- Exact time of a state's entry, and of its exit to Day, in ticks (R379). -/
def entryTicks (target : Nat) : Nat := if target = 1 then 20 else if target = 2 then 3000 else 40000
def exitTicks (cur : Nat) : Nat := if cur = 1 then 200 else if cur = 2 then 15000 else 120000

/-- Limit of a stage of Dawn, in ticks (R383). -/
def stageLimit (cur stage : Nat) : Nat :=
  match stage with
  | 1 => if cur = 2 then 1000 else 50000
  | 2 => 2000
  | 3 => if cur = 2 then 7000 else 30000
  | _ => if cur = 2 then 4000 else 35000

/-- Dawn begins: stage 1, or no stage from Dusk (R383). -/
def Mach.beginDawn (m : Mach) : Mach :=
  let cur := m.rd .PWR_STATE_CUR
  let m := (m.wr .PWR_STATE_MOVING 1).wr .PWR_STATE_DAWNSTAGE (if 2 ≤ cur then 1 else 0)
  let m := if cur = 3 then (((m.emit (.pin (pinPwrEn 0) true)).emit (.pin (pinPwrEn 1) true)).emit (.pin (pinPwrEn 2) true)) else m
  { m with power := { m.power with dawnAt := some m.tick, dawnFails := 0, stageAt := m.tick, wakePend := false } }

/-- A wake: Dawn begins, or waits for the entry to complete. -/
def Mach.wake (m : Mach) : Mach :=
  if m.power.entering then { m with power := { m.power with wakePend := true } }
  else if m.rd .PWR_STATE_CUR != 0 && m.power.dawnAt.isNone then m.beginDawn
  else m

/-- A command needs a core or a quadrant domain: one it starts on demand, or a POWER start names it. -/
def Mach.needsDay (m : Mach) (p q : Nat) (c : Cmd) : Bool :=
  (m.needs p q c).any (fun d => decide (d < 240)) || (c.opcode == 0x0D && c.p1 == 1 && (m.powerDoms p c).any (fun d => decide (d < 240)))

/-- The state in force lets the command issue; a command that it does not let issue is a wake in Dusk and Night. -/
def Mach.stateLets (m : Mach) (p q : Nat) (c : Cmd) : Bool :=
  match m.stateInForce with
  | 0 => true
  | 1 => !m.needsDay p q c
  | 2 => [0x00, 0x07, 0x08, 0x0F].contains c.opcode
  | _ => false

/-! ## Requests (R381, R382) -/

/-- The first refuser of R382 that applies to a target: class and instance. -/
def Mach.refuser (m : Mach) (target : Nat) : Option (Nat × Nat) :=
  let deep := 2 ≤ target
  let first (cls : Nat) (l : Option Nat) : Option (Nat × Nat) := l.map (fun i => (cls, i))
  let pick (l : List (Option (Nat × Nat))) : Option (Nat × Nat) := l.findSome? id
  pick [
    if deep then first 0 ((List.range 16).find? (fun p => bit (m.rd .PWR_VETO_PART) p)) else none,
    first 1 ((List.range 192).find? (fun n => (m.core n).run)),
    first 2 ((List.range 12).find? (fun n => (List.range 512).any (fun b => (m.bank n b).occupant.isSome))),
    if deep then first 3 ((List.range 16).find? m.relayed) else none,
    if deep && m.flag .LINK_PAIR_ENABLE then some (4, 0) else none,
    if deep then first 5 ((List.range 16).find? (fun p => m.sq.issued.any (fun c => c.part == p) ||
      (target == 3 && (List.range 20).any (fun q => m.flag .SEQR_QCTL_ENABLE p q)))) else none,
    if m.flag .SEC_PSW_BUSY || m.selfCheck.isSome then some (6, 0) else none,
    if deep then first 7 ((List.range 12).find? (fun n => m.forgets.any (fun f => f.stack == n) || m.adds.any (fun a => a.1 % 16 == n) || m.rowCopy.any (fun r => r.stack == n))) else none,
    if deep && (List.range 16).any (fun p => m.flag .SEC_TENANT_WMEASCTL_BUSY p || m.flag .SEC_TENANT_IMPORTST_BUSY p) then some (7, 255) else none]

/-- PWR_REQ.GO with its target. -/
def powerStateRequest (target : Nat) (m : Mach) : Mach :=
  let m := m.wr .PWR_REQ_TARGET target
  let t := m.rd .PWR_REQ_TARGET
  if m.flag .PWR_STATE_MOVING then
    if m.flag .SEC_PSW_BUSY then
      ((((m.inc .PWR_REFUSE_COUNT 1 6).wr .PWR_LASTREF_CLASS 6).wr .PWR_LASTREF_INST 0).wr .PWR_LASTREF_TARGET t).wr .PWR_LASTREF_TICK m.tick48
    else m.badAcc
  else if t ≤ m.rd .PWR_STATE_CUR then m
  else match m.refuser t with
    | some (c, i) => ((((m.inc .PWR_REFUSE_COUNT 1 c).wr .PWR_LASTREF_CLASS c).wr .PWR_LASTREF_INST i).wr .PWR_LASTREF_TARGET t).wr .PWR_LASTREF_TICK m.tick48
    | none =>
      let m := m.wr .PWR_STATE_MOVING 1
      let m := { m with power := { m.power with target := t, acceptedAt := m.tick, entering := true, wakePend := false } }
      if 2 ≤ t then m.upPorts.foldl (fun m n => m.enqueue n 2 (m.hopFrame 1 (toBytes 32 1)) none) m else m

/-! ## Entry (R379, R380, R384, R385) -/

/-- All dirty lines of both caches are written back, and the caches are empty. -/
def Mach.flushAll (m : Mach) : Mach :=
  m.cache.foldl (fun m e =>
    let w := m.flushUnit e.1
    if w.2 then w.1.postUe 0 none (e.1 * 32) (e.1 * 32) else w.1) m

/-- A set of domains stops. -/
def Mach.stopDoms (m : Mach) (ds : List Nat) : Mach := ds.foldl (fun m d => m.stopDom d) m

/-- Accumulators of every core read zero. -/
def Mach.clearAcc (m : Mach) : Mach :=
  { m with cores := m.cores.map (fun c => (c.1, { c.2 with d := { c.2.d with acc := [], abft := [] }, before := { c.2.before with acc := [], abft := [] } })) }

/-- Core stores and instruction stores are lost: they read zero (R380). -/
def Mach.loseCores (m : Mach) : Mach :=
  { m with mem := m.mem.filter (fun e => decide (e.1 < coreBase)), wrong := m.wrong.filter (fun e => decide (e.1 * 16 < coreBase)), istore := [], istoreWrong := [], cores := [] }

/-- The save area of Midnight takes ciphertext of no stated bytes (R384; log entry 18). -/
def Mach.saveArea (m : Mach) : Mach :=
  let bs := (List.range (64 * 2 ^ 20)).map (fun i => BitVec.ofNat 8 (Config.freeValue (m.fresh + i)))
  let m := { m with fresh := m.fresh + 64 * 2 ^ 20 }
  (m.writeLocal 0 false (m.rd .PWR_MNSAVE_BASE) bs).1

/-- The guard releases. -/
def Mach.guardRelease (m : Mach) : Mach := { m.wr .PWR_GUARD_ACTIVE 0 with power := { m.power with belowFrom := none } }

/-- The state changes: leaving LOCKED is counted, and what was counted in the old state is gone. -/
def Mach.syncTo (m : Mach) (st : Nat) : Mach :=
  let m := if m.rd .TIME_SYNC_STATE = 2 ∧ st ≠ 2 then m.inc .TIME_SYNC_LOCKLOSS else m
  { m.wr .TIME_SYNC_STATE st with
    time := { m.time with sync := { m.time.sync with accepted := 0, near := 0, beyond := 0, stepped := false, since := m.tick } } }

/-- What a state's entry does to the block. -/
def Mach.enterState (m : Mach) (t : Nat) : Mach :=
  let m := (m.stopDoms (List.range 240)).guardRelease
  if t = 1 then m
  else
    let m := (m.flushAll.clearAcc).stopDoms ((List.range 16).map portDom ++ [farDom])
    let dark := m.upPorts
    let m := dark.foldl (fun m n => (m.wr .LINK_STATE_STATE 0 n).dropQueue n) m
    let m := { m with power := { m.power with dark := dark } }
    let m := (m.wr .PWR_ASSIST_CSIS 1).wr .PWR_ASSIST_CACHE 2
    if t = 2 then m
    else
      let m := (m.saveArea.loseCores.wr .PWR_ASSIST_CSIS 2).wr .PWR_ASSIST_CTRL 2
      let m := if m.rd .TIME_CTL_ROLE = 1 then m else m.syncTo 0
      ((m.emit (.pin (pinPwrEn 0) false)).emit (.pin (pinPwrEn 1) false)).emit (.pin (pinPwrEn 2) false)

/-- The entry time has passed. -/
def Mach.entryDue (m : Mach) : Bool := m.power.entering && decide (m.power.acceptedAt + entryTicks m.power.target ≤ m.tick)

/-- At the end of the entry time the block is in the requested state; a wake that waited starts Dawn. -/
def stateEntryDone (m : Mach) : Mach :=
  if m.entryDue then
    let m := m.enterState m.power.target
    let m := (m.wr .PWR_STATE_CUR m.power.target).wr .PWR_STATE_MOVING 0
    let w := m.power.wakePend
    let m := { m with power := { m.power with entering := false } }
    if w then m.beginDawn else m
  else m

/-! ## Wakes from outside -/

/-- A falling edge on WAKE_N. -/
def wakePin (m : Mach) : Mach := if m.flag .PWR_WAKE_PIN then m.wake else m

/-- The tick in PWR_WAKE.AT has passed. -/
def wakeTimer (m : Mach) : Mach := if m.rd .PWR_WAKE_AT != 0 && m.passed (m.rd .PWR_WAKE_AT) then m.wake else m

/-- A host request that wakes the block. -/
def hostWake (m : Mach) : Mach := m.wake

/-! ## Dawn (R383) -/

/-- The stage in progress is past its limit. -/
def Mach.stageOver (m : Mach) : Bool :=
  m.power.dawnAt.isSome && m.rd .PWR_STATE_DAWNSTAGE != 0 && decide (m.power.stageAt + stageLimit (m.rd .PWR_STATE_CUR) (m.rd .PWR_STATE_DAWNSTAGE) ≤ m.tick)

/-- A state change stops. -/
def Mach.stopMove (m : Mach) : Mach :=
  { (m.wr .PWR_STATE_MOVING 0).wr .PWR_STATE_DAWNSTAGE 0 with power := { m.power with entering := false, dawnAt := none, wakePend := false } }

/-- A Dawn is tried again, or fails for good: the block halts in the state it was leaving. -/
def dawnTimeout (m : Mach) : Mach :=
  if m.stageOver then
    if m.power.dawnFails = 0 then
      let m := (m.post ⟨0, 0, 0, 9, 0, fkDawnStage⟩).wr .PWR_STATE_DAWNSTAGE 1
      { m with power := { m.power with dawnFails := 1, stageAt := m.tick } }
    else (m.haltWith 9 0 fkDawnStage).stopMove
  else m

/-- What the logic stage brings back: the links train, the arrays stand at Day settings. -/
def Mach.dawnLogic (m : Mach) : Mach :=
  let m := m.power.dark.foldl (fun m n => if m.flag .LINK_CTL_ENABLE n then m.wr .LINK_STATE_STATE 1 n else m) m
  { m with power := { m.power with dark := [] } }

/-- The memory stage: every array at its Day settings (R383, R385). -/
def Mach.dawnMemory (m : Mach) : Mach := ((m.wr .PWR_ASSIST_CSIS 0).wr .PWR_ASSIST_CACHE 0).wr .PWR_ASSIST_CTRL 0

/-- The time of a stage counts from now. -/
def Mach.stageBegins (m : Mach) : Mach := { m with power := { m.power with stageAt := m.tick } }

/-- A stage signals ready: the next one starts; after the fourth the stages are over. Answers whether a Midnight save area failed its tag, which takes a warm reset (R384). -/
def Mach.dawnStage (m : Mach) (tag : Verdict) : Mach × Bool :=
  let s := m.rd .PWR_STATE_DAWNSTAGE
  if m.power.dawnAt.isNone || s == 0 then (m, false)
  else if s < 4 then (((if s = 3 then m.dawnMemory else m).wr .PWR_STATE_DAWNSTAGE (s + 1)).stageBegins, false)
  else if m.rd .PWR_STATE_CUR = 3 ∧ tag = .fail then (m.post ⟨0, 0, 0, 9, 0, fkDawnStage⟩, true)
  else ((m.dawnLogic.wr .PWR_STATE_DAWNSTAGE 0).wr .PWR_EXIT_LASTUS ((m.tick - m.power.dawnAt.getD 0) / 10), false)

/-- Day is due: Dawn runs, its stages are over, and the exit time has passed (R379). -/
def Mach.dayDue (m : Mach) : Bool :=
  m.power.dawnAt.any (fun t => decide (t + exitTicks (m.rd .PWR_STATE_CUR) ≤ m.tick)) && m.rd .PWR_STATE_DAWNSTAGE == 0

/-- Day is reported. The host accesses that waited are served by the caller. -/
def Mach.reportDay (m : Mach) : Mach :=
  let m := (m.wr .PWR_STATE_CUR 0).wr .PWR_STATE_MOVING 0
  { m with power := { m.power with dawnAt := none, dawnFails := 0 } }

/-! ## Temperature (R378, R386, R387) -/

def sampleFieldsOk (c : Cmd) : Bool := bits c.p1 63 24 == 0 && localWord c.p2 && c.p3 == 0 && c.p4 == 0

/-- DEST of a SAMPLE may be written. -/
def Mach.sampleDestOk (m : Mach) (p : Nat) (c : Cmd) : Bool :=
  let n := 8 * popcount 24 c.p1
  c.p2 == 0 || (c.p2 % 32 == 0 && m.inBlock c.p2 && m.rangeOk c.p2 n && m.allowed p true c.p2 n)

/-- Check 7 for SAMPLE: its DEST (R84, R378); one that selects no zone converts nothing and writes nothing. -/
def Mach.sampleCheck (m : Mach) (p : Nat) (c : Cmd) : Option Nat := if c.p1 = 0 ∨ m.sampleDestOk p c = true then none else some stDescRights

/-- A conversion starts. -/
def Mach.convert (m : Mach) (zones : List Nat) (o : ConvOwner) : Mach :=
  { m with power := { m.power with convs := m.power.convs ++ [⟨zones, o, m.tick⟩] } }

/-- A SAMPLE command starts. -/
def Mach.sampleStart (m : Mach) (c : Issued) : Mach :=
  if c.cmd.p1 = 0 then m.setIssued { c with result := some stEmpty }
  else m.convert (setBits 24 c.cmd.p1) (.sample c.id)

/-- Twice the median of a list in ascending order. -/
def median2 (l : List Int) : Int :=
  let n := l.length
  if n % 2 = 1 then 2 * l.getD (n / 2) 0 else l.getD (n / 2 - 1) 0 + l.getD (n / 2) 0

/-- Insertion into an ascending list. -/
def insertInt (x : Int) : List Int → List Int
  | [] => [x]
  | y :: ys => if x ≤ y then x :: y :: ys else y :: insertInt x ys

/-- Sensor k's result is implausible: outside −40 °C to 150 °C, or more than 15 °C from the median of the zone's other sensors in that range. In units of 0.25 °C. -/
def implausible (temps : List Int) (k : Nat) : Bool :=
  let inRange (t : Int) : Bool := decide (-160 ≤ t) && decide (t ≤ 600)
  let t := temps.getD k 1000
  let others := ((List.range 4).filter (fun j => j != k && inRange (temps.getD j 1000))).map (fun j => temps.getD j 1000)
  let med := median2 (others.foldl (fun l x => insertInt x l) [])
  !inRange t || (!others.isEmpty && decide (120 < (2 * t - med).natAbs))

/-- Class-9 instance of a zone's unit. -/
def zoneInst (z : Nat) : Nat := if z < 12 then z / 6 else z - 10

/-- The readings of one zone are taken. -/
def Mach.takeZone (m : Mach) (readings : List Int) (z : Nat) : Mach :=
  let temps := (List.range 4).map (fun k => readings.getD (4 * z + k) 1000)
  let bad := (List.range 4).filter (implausible temps)
  let good := (List.range 4).filter (fun k => !implausible temps k)
  let m := m.inc .THERM_FLAG_COUNT bad.length
  let m := bad.foldl (fun m k =>
    if m.power.badSensors.contains (4 * z + k) then m
    else ({ m with power := { m.power with badSensors := (4 * z + k) :: m.power.badSensors } }).post ⟨0, 0, 0, 9, zoneInst z, fkSensor⟩) m
  let top := good.foldl (fun t k => max t (temps.getD k 0)) (-160)
  let m := m.wr .THERM_ZONE_TEMP (if good.isEmpty then 0x7FFF else ofSigned 16 top) z
  let m := m.wr .THERM_ZONE_VALID (b2n (!good.isEmpty)) z
  (m.wr .THERM_ZONE_IGNORED (bad.foldl (fun s k => s + 2 ^ k) 0) z).wr .THERM_ZONE_TICK (m.tick % 2 ^ 32) z

/-- The 64-bit value of THERM_ZONE[z]. -/
def Mach.zoneWord (m : Mach) (z : Nat) : Nat :=
  m.rd .THERM_ZONE_TEMP z + m.rd .THERM_ZONE_VALID z * 2 ^ 16 + m.rd .THERM_ZONE_IGNORED z * 2 ^ 20 + m.rd .THERM_ZONE_TICK z * 2 ^ 32

/-- The hottest valid zone of a list, as a 16-bit reading; 0x7FFF where none is valid. -/
def Mach.hottest (m : Mach) (zs : List Nat) : Nat :=
  let vs := (zs.filter (fun z => m.flag .THERM_ZONE_VALID z)).map (fun z => toSigned 16 (m.rd .THERM_ZONE_TEMP z))
  if vs.isEmpty then 0x7FFF else ofSigned 16 (vs.foldl max (-160))

/-- The answer of a temperature query: die A, die B, stacks 0 to 11, two bytes each (log entry 19). -/
def Mach.temperatureBody (m : Mach) : Bytes :=
  toBytes 2 (m.hottest (List.range 6)) ++ toBytes 2 (m.hottest ((List.range 6).map (6 + ·))) ++ ((List.range 12).map (fun n => toBytes 2 (m.hottest [12 + n]))).flatten

/-- A conversion for an option-store write ends: the write goes on only at 0 °C to 85 °C (R390). -/
def Mach.optionCheck (m : Mach) : Mach :=
  let t := toSigned 16 (m.rd .THERM_ZONE_TEMP 0)
  if m.flag .THERM_ZONE_VALID 0 && decide (0 ≤ t) && decide (t ≤ 340) then m
  else
    let m := { m with trust := { m.trust with optWrite := none } }
    ((m.wr .SEC_OPTST_BUSY 0).wr .SEC_OPTST_STATUS stTempRange).post ⟨0, 0, 0, 8, 0, fkOptWrite⟩

/-- A conversion has taken its 40 µs (R387); the sideband's may run while the time base stands still in a reset, and its sender gives its end. -/
def Conv.over (k : Conv) (now : Nat) : Bool := k.owner == .sideband || decide (k.start + 400 ≤ now)

/-- The oldest conversion that is over ends with the sensors' readings, zone × 4 + sensor, in 0.25 °C. -/
def conversionDone (readings : List Int) (m : Mach) : Mach :=
  match m.power.convs.find? (fun k => k.over m.tick) with
  | none => m
  | some k =>
    let m := { m with power := { m.power with convs := m.power.convs.erase k } }
    let m := k.zones.foldl (fun m z => m.takeZone readings z) m
    match k.owner with
    | .sample id =>
      (match m.issuedOf id with
       | some c =>
         let w := if c.cmd.p2 = 0 then (m, stOk) else m.writeFor c.part c.id c.cmd.p2 ((k.zones.map (fun z => toBytes 8 (m.zoneWord z))).flatten)
         w.1.setIssued { (w.1.issuedOf c.id).getD c with result := some w.2, progress := k.zones.length }
       | none => m)
    | .now z _ => m.emit (.regRead (0x00A00100 + z * 8) 64 (m.zoneWord z))
    | .sideband => m.emit (.message msgTemperature m.temperatureBody)
    | .option => m.optionCheck

/-! ## Trips, rails and PLLs (R389, R392) -/

/-- Compute die d reaches 120 °C. -/
def dieTrip (d : Nat) (m : Mach) : Mach :=
  let m := (m.setB .THERM_TRIP_DIE d).emit (.pin pinThermtrip false)
  let m := m.stopDoms ((List.range 96).map (96 * d + ·) ++ (List.range 24).map (192 + 24 * d + ·))
  m.stopMove.haltWith 9 d fkTripDie

/-- DRAM of stack n reaches 105 °C. During an entry or Dawn the block halts as well, and the state change stops (R393). -/
def dramTrip (n : Nat) (m : Mach) : Mach :=
  let t := ((m.setB .THERM_TRIP_DRAM n).emit (.pin pinThermtrip false)).fenceStack n 9 (2 + n) fkTripDram
  if m.flag .PWR_STATE_MOVING then t.stopMove.reactHalt else t

/-- A REG_GOOD input falls while its rail is enabled: in Midnight the rails the block holds disabled do not count (R415). Rails: 0 core A, 1 core B, 2 SRAM, 3 always-on, 4 stack, 5 I/O. -/
def railFail (r : Nat) (m : Mach) : Mach :=
  if m.rd .PWR_STATE_CUR = 3 then m else m.haltWith 9 (if r = 1 then 1 else 0) fkRail

/-- A PLL of die d loses lock. -/
def pllLoss (d : Nat) (m : Mach) : Mach := if m.rd .PWR_STATE_CUR = 3 then m else m.haltWith 9 d fkPll

/-! ## The power guard (R391) -/

/-- One measurement of the window's power, in W. -/
def guardSample (watts : Nat) (m : Mach) : Mach :=
  let rel := m.rd .PWR_GUARD_RELEASE
  let lim := max (m.rd .PWR_GUARD_LIMIT) rel
  if !m.flag .PWR_GUARD_ACTIVE then
    if lim < watts then
      let m := ((m.wr .PWR_GUARD_ACTIVE 1).inc .PWR_GUARD_COUNT).post ⟨0, 0, 0, 9, 0, fkPguard⟩
      let m := (List.range 16).foldl (fun m p => m.setCauses p causePguard) m
      let m := { m with power := { m.power with belowFrom := none } }
      m.takeOutWhere causePguard (fun c => c.result.isNone)
    else m
  else if watts < rel then
    match m.power.belowFrom with
    | none => { m with power := { m.power with belowFrom := some m.time.ns } }
    | some t => if t + 100000 ≤ m.time.ns then m.guardRelease else m
  else { m with power := { m.power with belowFrom := none } }

end Sys2Proof.Machine
end

