-- ==== Sys2Proof/Machine/Sequencer.lean ====
section
/-! DEFINITION. The sequencer (files 02 and 04): eligibility (R26, R30 to R32), issue with its checks (R84) and envelope (R33, R40, R41), the opcodes it executes itself (R96 to R99),
the start of engine commands (R67, R81) and completion (R100 to R104). -/
namespace Sys2Proof.Machine

/-! ## The sequencer's own opcodes (R96 to R99) -/

/-- PATCH's reserved bits (R97). -/
def patchFieldsOk (c : Cmd) : Bool := bits c.p1 63 14 == 0 && bits c.p3 63 14 == 0

/-- One operation of a PATCH: whether it applied one. -/
def Mach.patchOne (m : Mach) (p sel val : Nat) : Mach × Nat :=
  let dst := bits sel 5 0
  match bits sel 7 6 with
  | 0 => (m, 0)
  | 1 => (m.wr .SEQR_PARAM_VALUE val p dst, 1)
  | 2 => (m.wr .SEQR_PARAM_VALUE (m.rd .SEQR_PARAM_VALUE p dst + val) p dst, 1)
  | _ => (m.wr .SEQR_PARAM_VALUE (m.rd .SEQR_PARAM_VALUE p (bits sel 13 8)) p dst, 1)

/-- Slots of a ring (R108). -/
def Mach.ringSize (m : Mach) (p q : Nat) : Nat := 2 ^ m.rd .SEQR_QSIZE_LOG2 p q

/-- JUMP's reserved bits and target (R98). -/
def Mach.jumpFieldsOk (m : Mach) (p q : Nat) (c : Cmd) : Bool :=
  !bit c.p1 23 && bits c.p1 63 32 == 0 && bits c.p2 63 48 == 0 && c.p4 == 0 && decide (bits c.p1 15 0 < m.ringSize p q)

/-- JUMP: answers whether it was taken. -/
def Mach.jump (m : Mach) (p q : Nat) (c : Cmd) : Mach × Bool :=
  let creg := bits c.p1 22 17
  let areg := bits c.p1 30 25
  let n := m.rd .SEQR_PARAM_VALUE p creg
  if bit c.p1 16 && n == 0 then (m, false)
  else
    let m := if bit c.p1 16 then m.wr .SEQR_PARAM_VALUE (n - 1) p creg else m
    let m := if bit c.p1 24 then m.wr .SEQR_PARAM_VALUE (m.rd .SEQR_PARAM_VALUE p areg + c.p3) p areg else m
    let m := if bit c.p1 31 then m.wr .SEQR_QTBASE_TICK (m.rd .SEQR_QTBASE_TICK p q + bits c.p2 47 0) p q else m
    (m.wr .SEQR_QHEAD_HEAD (bits c.p1 15 0) p q, true)

/-- The operation of a sequencer opcode at its issue instant: status, progress and the state. -/
def Mach.seqOpRun (m : Mach) (p q : Nat) (c : Cmd) : Mach × Nat × Nat :=
  match c.opcode with
  | 0x07 =>
    let met := (c.waits.filter (m.waitMet p)).length
    (m, if met = 5 then stOk else stDeadline, met)
  | 0x08 =>
    let a := m.patchOne p c.p1 c.p2
    let b := a.1.patchOne p c.p3 c.p4
    (b.1, if a.2 + b.2 = 0 then stEmpty else stOk, a.2 + b.2)
  | 0x0E =>
    let wanted := m.traced p 3 && m.traceRoom
    (m.trace 3 p q c.opcode c.tag (toBytes 8 c.p1 ++ toBytes 8 c.p2), stOk, b2n wanted)
  | 0x0F =>
    let r := m.jump p q c
    (r.1, stOk, b2n r.2)
  | _ => (m, stOk, 1)

/-! ## FLUSH (R99, R331) -/

def flushFieldsOk (c : Cmd) : Bool := localWord c.p1 && decide (c.p2 < 2 ^ 40) && c.p3 == 0 && c.p4 == 0

/-- Every byte of FLUSH's range lies in the stacks. -/
def Mach.flushRangeOk (m : Mach) (c : Cmd) : Bool := m.inStacks c.p1 && m.rangeOk c.p1 c.p2

/-- Insertion by ascending address. -/
def insertUnit (x : Nat × Nat) : List (Nat × Nat) → List (Nat × Nat)
  | [] => [x]
  | y :: ys => if x.1 ≤ y.1 then x :: y :: ys else y :: insertUnit x ys

/-- Held units of a range with their addresses in its view, in address order. -/
def Mach.unitsIn (m : Mach) (a n : Nat) : List (Nat × Nat) :=
  let addrOf (k : Nat) : Nat := if m.region a = 1 then k * 32 else stripedOf (k * 32)
  let inside := (m.cache.filter (fun e => e.2.held != 0)).filterMap (fun e =>
    let x := addrOf e.1
    if x < a + n ∧ a < x + 32 then some (x, e.1) else none)
  inside.foldl (fun l x => insertUnit x l) []

/-- A FLUSH starts: every held unit of the range is written back and invalidated. -/
def Mach.flushStart (m : Mach) (c : Issued) : Mach :=
  let a := c.cmd.p1
  let n := c.cmd.p2
  if n = 0 then m.setIssued { c with result := some stEmpty }
  else
    let r := (m.unitsIn a n).foldl (fun (r : Mach × Option Nat) u =>
      let w := r.1.flushUnit u.2
      if w.2 then (w.1.postUe c.part (some c.id) u.1 u.1, some (r.2.getD u.1)) else (w.1, r.2)) (m, none)
    let m := r.1.throttleTouch c.id (m.stacksOf a n)
    let c := (m.issuedOf c.id).getD c
    match r.2 with
    | some x => m.setIssued { c with result := some stUe, progress := x - a }
    | none => m.setIssued { c with result := some stOk, progress := n }

/-! ## The checks of R84 -/

/-- Check 4: reserved bits and ranges of the opcode's parameters. -/
def Mach.paramsOk (m : Mach) (p q : Nat) (c : Cmd) : Bool :=
  match c.opcode with
  | 0x00 => c.p1 == 0 && c.p2 == 0 && c.p3 == 0 && c.p4 == 0
  | 0x01 => decide (c.p1 < 4096)
  | 0x02 => stackFieldsOk c
  | 0x03 => m.copyFieldsOk c
  | 0x05 => m.remoteFieldsOk c
  | 0x06 => sealFieldsOk c
  | 0x08 => patchFieldsOk c
  | 0x09 => seqFieldsOk c
  | 0x0A => pageFieldsOk c
  | 0x0B => flushFieldsOk c
  | 0x0C => sampleFieldsOk c
  | 0x0D => powerFieldsOk c
  | 0x0E => c.p3 == 0 && c.p4 == 0
  | 0x0F => m.jumpFieldsOk p q c
  | _ => true

/-- Check 4 whole (R83, R86, R88, R90). -/
def Mach.fieldsOk (m : Mach) (p q : Nat) (c : Cmd) : Bool :=
  bits c.flags 7 5 == 0 && (!c.sealRec || c.opcode == 3) && bits c.psel 31 13 == 0 && !c.pbaseBad && c.waits.all (fun w => !waitBad w) && m.paramsOk p q c

/-- An array of n bytes at a local address lies whole in one region; the address alone where n is 0 (R54). -/
def Mach.arrayOk (m : Mach) (a n : Nat) : Bool := m.region a != 9 && m.rangeOk a n

/-- A per-item status array is absent, or lies whole in one region. -/
def Mach.statusOk (m : Mach) (a n : Nat) : Bool := a == 0 || m.arrayOk a n

/-- Check 5: addresses that lie in no region (R51 to R54, R58), their arrays with them. What else R201 and R422 ask of STACK and PAGE is theirs. -/
def Mach.addrsOk (m : Mach) (c : Cmd) : Bool :=
  match c.opcode with
  | 0x02 => m.arrayOk c.p1 64 && m.arrayOk c.p2 (c.p3 * 32) && m.statusOk c.p4 c.p3
  | 0x0A => m.arrayOk c.p2 (c.p3 * 16) && m.statusOk c.p4 c.p3
  | 0x03 => m.copyAddrOk c
  | 0x05 => m.remoteAddrOk c
  | 0x06 => m.globalOk c.p1
  | 0x09 => seqOp c == 1 || (m.arrayOk c.p2 (seqListLen c) && m.statusOk c.p4 c.p3)
  | 0x0B => m.flushRangeOk c
  | 0x0C => m.statusOk c.p2 (8 * popcount 24 c.p1)
  | _ => true

/-- An address in the host window or the far tier. -/
def Mach.external (m : Mach) (a : Nat) : Bool := m.region a == 3 || m.region a == 4

/-- Check 6: a scheduled command reads the host window or the far tier (R34). -/
def Mach.readsExternal (m : Mach) (p : Nat) (c : Cmd) : Bool :=
  match c.opcode with
  | 0x02 => c.p3 != 0 && (m.external c.p1 || m.external c.p2)
  | 0x03 => m.copyExternal p c
  | 0x09 => seqOp c != 1 && c.p3 != 0 && m.external c.p2
  | 0x0A => c.p3 != 0 && m.external c.p2
  | _ => false

/-- Check 7: the opcode's own chapter. STACK and PAGE have theirs at their start, after the checks of R84 (R201, R422). -/
def Mach.opcodeCheck (m : Mach) (p q : Nat) (c : Cmd) : Option Nat :=
  match c.opcode with
  | 0x01 =>
    let g := m.groupPhys p (q - 4)
    if g.isEmpty then some stEmpty else if g.any Option.isNone then some stCoreAbsent else none
  | 0x03 => m.copyCheck p c
  | 0x05 => m.remoteCheck p c
  | 0x06 => m.sealCheck p c
  | 0x09 => m.seqCheck p c
  | 0x0C => m.sampleCheck p c
  | _ => none

/-- The first check of R84 that fails decides the status. -/
def Mach.checkCommand (m : Mach) (p q : Nat) (c : Cmd) : Option Nat :=
  if c.part != p then some stPartMismatch
  else if !opcodeOk c.opcode q then some stCmdOpcode
  else if c.engine != engineOf q then some stCmdField
  else if !m.fieldsOk p q c then some stCmdField
  else if !m.addrsOk c then some stAddrInvalid
  else if c.issue != 0 && m.readsExternal p c then some stSchedExternal
  else m.opcodeCheck p q c

/-! ## Starting an engine command -/

/-- The effect of an engine command at its start. -/
def Mach.startEngine (m : Mach) (c : Issued) : Mach :=
  match c.cmd.opcode with
  | 0x01 => m.kernelStart c
  | 0x02 => m.stackStart c
  | 0x03 => if c.cmd.amo then m.copyAmoStart c else m.copyStart c
  | 0x05 => if remoteRead c.cmd then m.remoteReadStart c else m.remoteWriteStart c
  | 0x06 => m.sealStart c
  | 0x09 => m.seqStart c
  | 0x0A => m.pageStart c
  | 0x0B => m.flushStart c
  | 0x0C => m.sampleStart c
  | 0x0D => m.powerStart c
  | _ => m

/-- A unit in reset that an engine command needs: a core of its group, the stack sequencer, or a core whose store it reads or writes (R400). -/
def Mach.scopeInReset (m : Mach) (c : Issued) : Option (Nat × Nat) :=
  let core (o : Option Nat) : Option (Nat × Nat) := o.map (fun n => (0, n))
  if m.resets.units.isEmpty then none
  else match c.cmd.opcode with
  | 0x01 => core ((m.kernelCores c).find? (fun n => m.resets.units.contains (0, n)))
  | 0x02 => if m.resets.units.contains (1, c.queue - 8) then some (1, c.queue - 8) else none
  | 0x0A => if m.resets.units.contains (1, c.queue - 8) then some (1, c.queue - 8) else none
  | 0x03 =>
    if c.cmd.amo then none
    else match m.copyJob c with
      | some j => core ((j.dst.byteRanges ++ (match j.src with | some s => s.byteRanges | none => [])).findSome? (fun x => m.rangeInReset x.1 x.2))
      | none => none
  | 0x05 => core (m.rangeInReset c.cmd.p1 (remoteLen c.cmd))
  | _ => none

/-- A command that a wrapper completes: ST_RESET, for each of its items where it has any. -/
def Mach.endReset (m : Mach) (c : Issued) : Mach :=
  if (c.cmd.opcode = 2 ∨ c.cmd.opcode = 0xA) ∧ c.cmd.p3 ≠ 0 then
    m.setIssued { c with result := some stReset, items := c.cmd.p4, itemSt := List.replicate c.cmd.p3 (some stReset) }
  else m.setIssued { c with result := some stReset }

/-- The oldest issued command of a queue. -/
def Mach.oldest (m : Mach) (p q : Nat) : Option Issued := m.sq.issued.find? (fun c => c.part == p && c.queue == q)

/-- Commands of partition p may issue: enabled, resident, and not being switched out by the self-check or a switch, which stops them from the tick boundary after its request
(R258, R279, R280, R343). -/
def Mach.partRuns (m : Mach) (p : Nat) : Bool :=
  m.flag .SEC_PART_CTL_ENABLE p && m.flag .SEC_PART_CTL_RESIDENT p && !(m.flag .SEC_PSW_BUSY && m.switch.out == p && m.switch.at_ != m.tick) &&
    !m.selfCheck.any (fun s => s.parts.contains p)

/-- The oldest command of a queue starts, once its domains run (R49, R67); a KERNEL only while its partition is not switched out (R279). -/
def Mach.startNext (m : Mach) (p q : Nat) : Mach :=
  match m.oldest p q with
  | some c =>
    if c.started || c.result.isSome || !m.powered c || (c.cmd.opcode == 1 && !m.partRuns p) then m
    else
      let c : Issued := { c with started := true }
      match m.scopeInReset c with
      | some u => (m.isoAbort (some c.id) p u.1 u.2 1).endReset c
      | none => (m.setIssued c).startEngine c
  | none => m

/-! ## Completion (R100 to R104) -/

/-- A command's completion halts its queue (R104). -/
def Issued.halts (c : Issued) (st : Nat) : Bool := (c.cmd.haltFail && !isOk st) || (c.cmd.opcode == 3 && st == stUe)

/-- A 48-bit tick is after another. -/
def after48 (now x : Nat) : Bool := reached48 now x && now % 2 ^ 48 != x % 2 ^ 48

/-- CFLAGS of a completion record (R100). -/
def Mach.cflags (m : Mach) (c : Issued) (st : Nat) : Nat :=
  b2n c.ooe + 2 * b2n (c.cmd.deadline != 0 && after48 m.tick c.cmd.deadline) + 4 * b2n (c.degraded || st == stDegraded) + 8 * b2n (c.halts st)

/-- The 32 bytes of a completion record (R100). -/
def Mach.completionRecord (m : Mach) (c : Issued) (st : Nat) : Bytes :=
  toBytes 1 st ++ toBytes 1 (m.cflags c st) ++ toBytes 1 c.cmd.opcode ++ toBytes 1 c.queue ++ toBytes 4 c.cmd.tag ++ toBytes 6 c.tick ++
    toBytes 6 m.tick48 ++ toBytes 6 c.progress ++ toBytes 6 c.items

/-- The seal record of a COPY with SEALREC (R93). -/
def Mach.copySeal (m : Mach) (c : Issued) (st : Nat) : Bytes :=
  toBytes 4 c.cmd.tag ++ toBytes 6 m.tick48 ++ List.replicate 14 0 ++ toBytes 1 st ++ toBytes 3 1 ++ toBytes 2 c.cmd.tag ++
    toBytes 2 (m.rd .GLOBAL_BLOCK_NUM)

/-- Per-item statuses, then a COPY's seal record, then the completion record (R93, R101, R103). -/
def Mach.writeRecords (m : Mach) (c : Issued) (st : Nat) : Mach :=
  let p := c.part
  let m := if c.items = 0 then m else (m.write p false c.items (c.itemSt.map (fun s => BitVec.ofNat 8 (s.getD stOk)))).1
  let m := if c.cmd.opcode = 3 ∧ c.started ∧ c.cmd.sealRec then (m.write p false c.cmd.copyAddr (m.copySeal c st)).1 else m
  (m.write p false (m.rd .SEQR_CRBASE_ADDR p c.queue + c.slot * 32) (m.completionRecord c st)).1

/-- A token and an event of a command outside the envelope are remembered for R41. -/
def Mach.markOut (m : Mach) (c : Issued) : Mach :=
  if c.ooe then
    let tok : OutMark := ⟨c.part, true, c.queue, m.rd .SEQR_QDONE_COUNT c.part c.queue, 0⟩
    let ev : List OutMark := if c.cmd.event then [⟨c.part, false, c.cmd.evnum, m.rd .SEQR_EVC_COUNT c.part c.cmd.evnum, 0⟩] else []
    { m with sq := { m.sq with outMarks := tok :: ev ++ m.sq.outMarks } }
  else m

/-- The token counter of a queue rises; waits see it from the next tick (R90). -/
def Mach.token (m : Mach) (p q : Nat) : Mach :=
  let m := m.incMod .SEQR_QDONE_COUNT 1 p q
  { m with sq := { m.sq with tokDelta := nset (fun _ => 0) m.sq.tokDelta (p * 32 + q) (nget (fun _ => 0) m.sq.tokDelta (p * 32 + q) + 1) } }

/-- A cause of R40 is active in a scope that includes resources of partition p (R42); `id` is the SEQ that asks. -/
def Mach.causeActive (m : Mach) (p id : Nat) : Bool :=
  m.flag .PWR_GUARD_ACTIVE || m.sq.preempts.any (fun x => x.a == p || x.b == p) ||
    (List.range 12).any (fun n => (m.stack n).throt && m.usesStack p n) ||
    m.sq.issued.any (fun c => c.part == p && c.id != id &&
      c.causes &&& (causeFec ||| causeUe ||| causeAsap ||| causeNeighbour) != 0)

/-- A SEQ that takes the partition back inside the envelope (R42). -/
def Mach.returns (m : Mach) (c : Issued) (st : Nat) : Bool :=
  c.cmd.opcode == 9 && c.started && isOk st && c.sched != 0 && c.tick % 2 ^ 48 == c.sched && !c.ooe && !m.causeActive c.part c.id

/-- The partition is inside the envelope again; a step that this SEQ opened began inside. -/
def Mach.enterEnv (m : Mach) (c : Issued) : Mach :=
  let m := m.wr .TIME_ENV_IN 1 c.part
  if seqOp c.cmd = 1 then m.setMon c.part { m.mon c.part with ooe := false } else m

/-- The status takes the Step reaction (R349): a SEQ's ST_POISON comes from its items alone. -/
def Issued.reacts (c : Issued) (st : Nat) : Bool :=
  takesStep st && [1, 2, 3, 5, 6, 9, 0xB].contains c.cmd.opcode && !(c.cmd.opcode == 9 && st == stPoison)

/-- Tick of its completion, for the queue's last command (R41). -/
def Mach.predDone (m : Mach) (p q : Nat) : Mach :=
  if m.sq.issued.any (fun c => c.part == p && c.queue == q) then m
  else
    { m with sq := { m.sq with preds := m.sq.preds.map (fun e => if e.1 = p * 32 + q ∧ e.2.doneAt.isNone then (e.1, { e.2 with doneAt := some m.tick }) else e) } }

/-- A command completes with a status: its records, then its token, then its event, and all that hangs on the completion. -/
def Mach.complete (m : Mach) (c : Issued) (st : Nat) : Mach :=
  let p := c.part
  let q := c.queue
  let m := m.writeRecords c st
  let m := { m with sq := { m.sq with issued := m.sq.issued.filter (fun x => x.id != c.id) } }
  let m := (m.wr .SEQR_QSTAT_LASTST st p q).wr .SEQR_QSTAT_LASTTAG c.cmd.tag p q
  let m := m.token p q
  let m := if c.cmd.event then m.raiseEvent p c.cmd.evnum else m
  let m := (m.markOut c).predDone p q
  let m := if c.halts st then m.wr .SEQR_QSTAT_HALTED 1 p q else m
  let m := if c.cmd.trace then
      m.trace 2 p q c.cmd.opcode c.cmd.tag (toBytes 1 st ++ toBytes 1 (m.cflags c st) ++ toBytes 6 m.tick48 ++ toBytes 6 c.progress)
    else m
  let m := if c.degraded || st == stDegraded then m.setMon p { m.mon p with degraded := true } else m
  let m := if c.cmd.ckpt then m.checkpoint p c.cmd.deadline c.cmd.tag else m
  let m := if c.cmd.opcode = 9 ∧ seqOp c.cmd = 2 ∧ c.extra = [1] then m.interference p else m
  let m := if m.returns c st then m.enterEnv c else m
  let m := if c.reacts st then m.reactStep p else m
  m.settleStops

/-- Commands of a queue that have ended complete, oldest first (R67). -/
def completeRun (p q : Nat) : Nat → Mach → Mach
  | 0, m => m
  | k + 1, m =>
    match m.oldest p q with
    | some c => (match c.result with
      | some _ =>
        let r := m.emitNow c
        completeRun p q k (r.1.complete r.2 (r.2.result.getD stOk))
      | none => m)
    | none => m

/-- Every command of a queue that has ended completes, and the next one starts. -/
def Mach.drainQueue (m : Mach) (p q : Nat) : Mach := (completeRun p q m.sq.issued.length m).startNext p q

/-- COMMAND_COMPLETION: the oldest command of a queue completes once its operation has ended. -/
def commandCompletion (p q : Nat) (m : Mach) : Mach :=
  match m.oldest p q with
  | some c => if c.result.isSome then m.drainQueue p q else m
  | none => m

/-- A started domain reports ready, its lead time over and not before, and the commands that waited for it start (R48, R49). -/
def domainReady (d : Nat) (m : Mach) : Mach :=
  if (m.dom d).st = 1 ∧ (m.dom d).readyAt ≤ m.tick then
    let m := m.setDom d { m.dom d with st := 2 }
    (m.sq.issued.filter (fun c => !c.started && c.result.isNone)).foldl (fun m c => m.startNext c.part c.queue) m
  else m

/-- Domains whose lead time ends in the running tick report ready before it ends (R48). -/
def Mach.readyDue (m : Mach) : Mach := m.doms.foldl (fun m e => domainReady e.1 m) m

/-! ## Issue (R31, R33, R40, R41) -/

/-- The sequencer runs: firmware has started, no reset or Halt stands, and the pair protocol has not fenced the block (R18, R305, R348). -/
def Mach.seqAlive (m : Mach) : Bool := !m.resets.cold && m.resets.warm.isNone && m.firmware && !m.flag .FAULT_STATUS_HALT && m.rd .LINK_PAIR_STATE != 4

/-- Index of the snapshot tail. -/
def Mach.snapTail (m : Mach) (p q : Nat) : Nat := nget (fun _ => 0) m.sq.snapTail (p * 32 + q)

/-- A partition that a switch has made resident in this tick: its queues are evaluated from the next one (R280). -/
def Mach.justIn (m : Mach) (p : Nat) : Bool := m.switch.inn == p && m.switch.endedAt == some m.tick

/-- The queue is evaluated, holds a command below its snapshot tail, and the limits of R32 leave room. -/
def Mach.mayIssue (m : Mach) (p q : Nat) : Bool :=
  m.seqAlive && m.partRuns p && !m.justIn p && m.flag .SEQR_QCTL_ENABLE p q && !m.flag .SEQR_QSTAT_HALTED p q && m.rd .SEQR_QHEAD_HEAD p q != m.snapTail p q &&
    decide (nget (fun _ => 0) m.sq.inTick (p * 32 + q) < 4) && decide (m.sq.inTickAll < 64)

/-- The tick and wait conditions of R31 and R96 are met for a resolved command. -/
def Mach.isDue (m : Mach) (p : Nat) (c : Cmd) : Bool :=
  (c.issue == 0 || m.passed c.issue) &&
    (c.waits.all (m.waitMet p) || (c.opcode == 7 && c.deadline != 0 && m.passed c.deadline))

/-- Scheduled commands are held: follower role, FREE or ACQUIRING (R26). -/
def Mach.holdsScheduled (m : Mach) : Bool := m.rd .TIME_CTL_ROLE == 0 && decide (m.rd .TIME_SYNC_STATE < 2)

/-- A resolved command of queue q issues now. -/
def Mach.canIssue (m : Mach) (p q : Nat) (c : Cmd) : Bool :=
  m.mayIssue p q && m.isDue p c && !(c.issue != 0 && m.holdsScheduled) && m.stateLets p q c

/-- Causes that hold for a command at its issue (R40), and whether R41 makes it dependent, with the causes a neighbour's seal carries. -/
def Mach.issueCauses (m : Mach) (p q : Nat) (c : Cmd) : Nat × Bool :=
  let own := (if c.issue = 0 then causeAsap else 0) ||| (if m.flag .PWR_GUARD_ACTIVE then causePguard else 0) |||
    (if m.sq.preempts.any (fun x => x.a == p || x.b == p) then causePreempt else 0) |||
    (if 8 ≤ q ∧ (c.opcode = 2 ∨ c.opcode = 0xA) ∧ (m.stack (q - 8)).throt then causeThrottle else 0)
  let waits := c.waits.filterMap (m.waitCauses p)
  let pred := match (m.sq.preds.find? (fun e => e.1 == p * 32 + q)) with
    | some e => c.issue != 0 && e.2.out && (match e.2.doneAt with | some t => after48 t c.issue | none => true)
    | none => false
  let lost := c.waits.any (m.waitsOnLost p)
  (waits.foldl (· ||| ·) (own ||| (if lost then causeFec else 0)), pred || !waits.isEmpty)

/-- The first SEQ of an incoming partition issues: its pre-emption ends (R40). -/
def Mach.endPreempt (m : Mach) (p : Nat) (c : Cmd) : Mach :=
  if c.opcode = 9 then { m with sq := { m.sq with preempts := m.sq.preempts.filter (fun x => x.b != p) } } else m

/-- The issue is counted against R32's limits, and the queue moves past its slot. -/
def Mach.takeSlot (m : Mach) (p q : Nat) : Mach :=
  let m := m.wr .SEQR_QHEAD_HEAD ((m.rd .SEQR_QHEAD_HEAD p q + 1) % m.ringSize p q) p q
  { m with sq := { m.sq with
      inTick := nset (fun _ => 0) m.sq.inTick (p * 32 + q) (nget (fun _ => 0) m.sq.inTick (p * 32 + q) + 1)
      inTickAll := m.sq.inTickAll + 1 } }

/-- The command as it stands in the list of issued commands. -/
def Mach.newIssued (m : Mach) (p q slot : Nat) (c : Cmd) (causes : Nat) (ooe : Bool) (result : Option Nat) : Issued :=
  { id := m.sq.nextId, part := p, queue := q, slot := slot, cmd := c, tick := m.tick, sched := c.issue, causes := causes, ooe := ooe, result := result,
    progress := 0, items := 0, degraded := false, itemSt := [], left := 0, started := false,
    extra := if c.opcode = 6 then (List.range 3).map (fun i => m.rd .SEQR_PARAM_VALUE p (bits c.p3 29 24 + i))
      else if c.opcode = 3 ∧ c.amo then [b2n (c.p1 / 2 ^ 48 == m.rd .GLOBAL_BLOCK_NUM)] else []
    descs := if c.opcode = 3 ∧ !c.amo then ((if c.fill then [c.p2] else [c.p2, c.p1]).map (fun h => (m.resolveHandle p h).getD [])) else [] }

/-- The command joins the issued ones, is a schedule overrun or outside the envelope, and is traced. -/
def Mach.enroll (m : Mach) (c : Issued) : Mach :=
  let p := c.part
  let m := { m with sq := { m.sq with
    issued := m.sq.issued ++ [c], nextId := m.sq.nextId + 1
    preds := put natBefore (p * 32 + c.queue) ⟨c.ooe, none⟩ m.sq.preds } }
  let m := if c.ooe then m.leaveEnv c c.causes
    else if c.sched != 0 && after48 m.tick c.sched && m.flag .TIME_ENV_IN p then (m.inc .TIME_SCHED_OVERRUN).wr .TIME_SCHED_LASTTAG c.cmd.tag
    else m
  if c.cmd.trace then m.trace 1 p c.queue c.cmd.opcode c.cmd.tag (toBytes 6 c.tick ++ toBytes 6 c.sched) else m

/-- A new command that has ended at its issue completes at once, unless an earlier one of its queue has not (R67, R81). -/
def Mach.completeNew (m : Mach) (c : Issued) : Mach :=
  match m.oldest c.part c.queue with
  | some x => if x.id = c.id then m.drainQueue c.part c.queue else m
  | none => m

/-- A resolved command issues: checked, and refused, executed by the sequencer, or given to its engine. `met` holds the causes that its fetch met (R40, R333). -/
def Mach.issue (m : Mach) (p q : Nat) (c : Cmd) (met : Nat) : Mach :=
  let slot := m.rd .SEQR_QHEAD_HEAD p q
  let m := m.endPreempt p c
  let k := m.issueCauses p q c
  let st := m.checkCommand p q c
  let x := m.newIssued p q slot c (k.1 ||| met) (k.1 ||| met != 0 || k.2) st
  let m := (m.takeSlot p q).enroll x
  match st with
  | some s =>
    let m := if s = stPartMismatch then m.postBy ⟨p, c.tag, 0, 10, p, fkCmdPart⟩ q c.opcode else m
    m.completeNew x
  | none =>
    if isSeqOp c.opcode then
      let r := m.seqOpRun p q c
      (r.1.setIssued { x with result := some r.2.1, progress := r.2.2 }).completeNew x
    else (m.demand (m.needs p q c)).startNext p q

/-- The row of a command-list command: the sequencer evaluates c, of the row's form once resolved, as the next command of queue q of partition p. One that the state in force does not let issue wakes the block from Dusk and Night (R381). -/
def commandRow (form : Cmd → Bool) (p q : Nat) (raw : Cmd) (m : Mach) : Mach :=
  let c := m.resolve p q raw
  if !form c then m
  else if m.canIssue p q c then m.issue p q c 0
  else if m.mayIssue p q && m.isDue p c && !(c.issue != 0 && m.holdsScheduled) && decide (m.stateInForce < 3) then m.wake
  else m

end Sys2Proof.Machine
end

