-- ==== Sys2Proof/Machine/Partitions.lean ====
section
/-! DEFINITION. Partitions: enabling (R257, R258), what a switch or a reset does to commands in flight (R105, R207, R279), and the switch itself (R278 to R281). -/
namespace Sys2Proof.Machine

/-! ## Enabling (R257, R258) -/

/-- Logical cores of all four groups of a partition. -/
def Mach.partLogical (m : Mach) (p : Nat) : List Nat := ((List.range 4).map (m.groupLogical p)).flatten

/-- Two partitions conflict: a logical core lies in a group of each. -/
def Mach.conflict (m : Mach) (p q : Nat) : Bool := (m.partLogical p).any (fun l => (m.partLogical q).contains l)

def Mach.enabled (m : Mach) (p : Nat) : Bool := m.flag .SEC_PART_CTL_ENABLE p
def Mach.resident (m : Mach) (p : Nat) : Bool := m.flag .SEC_PART_CTL_RESIDENT p

/-- The session ranges of two partitions overlap. -/
def Mach.rangesOverlap (m : Mach) (p q : Nat) : Bool :=
  let a := m.rd .SEC_PART_RANGE_FIRST p
  let n := m.rd .SEC_PART_RANGE_COUNT p
  let b := m.rd .SEC_PART_RANGE_FIRST q
  let k := m.rd .SEC_PART_RANGE_COUNT q
  n != 0 && k != 0 && decide (a < b + k) && decide (b < a + n)

/-- A logical core lies in two groups of p, or a group names one above L175. -/
def Mach.groupsBad (m : Mach) (p : Nat) : Bool :=
  (List.range 4).any (fun g => decide (2 ^ 48 ≤ m.rd .SEC_PART_CG_CORES p (g * 4 + 2)) ||
    (List.range 4).any (fun h => g != h && (m.groupLogical p g).any (fun l => (m.groupLogical p h).contains l)))

/-- A write of CTL.ENABLE. -/
def partitionEnable (p v : Nat) (m : Mach) : Mach :=
  if v % 2 = 1 then
    if m.enabled p then m
    else if m.groupsBad p || (List.range 16).any (fun q => q != p && m.enabled q && m.rangesOverlap p q) then m.badAcc
    else
      let free := !(List.range 16).any (fun q => q != p && m.resident q && m.conflict p q)
      let m := (m.wr .SEC_PART_CTL_ENABLE 1 p).wr .SEC_PART_CTL_RESIDENT (b2n free) p
      { m.setMon p { m.mon p with hadStep := false } with
        saved := m.saved.filter (fun s => s.part != p) }
  else if !m.enabled p then m
  else if (List.range 20).any (fun q => m.flag .SEQR_QCTL_ENABLE p q) || m.sq.issued.any (fun c => c.part == p) then m.badAcc
  else (m.wr .SEC_PART_CTL_ENABLE 0 p).wr .SEC_PART_CTL_RESIDENT 0 p

/-! ## Work in flight that stops -/

/-- A command that has not ended ends with a status. -/
def Mach.endWith (m : Mach) (st : Nat) (c : Issued) : Mach := m.setIssued { c with result := some st }

/-- An engine command of a kind with items that has not started ends with every item at a status (R103). -/
def Mach.endUnstarted (m : Mach) (st : Nat) (c : Issued) : Mach :=
  if c.cmd.p3 = 0 then m.endWith stEmpty c
  else m.setIssued { c with result := some st, items := c.cmd.p4, itemSt := List.replicate c.cmd.p3 (some st) }

/-- Items of a STACK command not yet started end with a status. -/
def Mach.endWaiting (m : Mach) (st : Nat) (c : Issued) : Mach :=
  let items : List Item := m.items.map (fun it => if it.cmdId = c.id ∧ it.phase = .waiting then { it with phase := .finished, failed := some st } else it)
  ({ m with items := items } : Mach).stackSettle c.id

/-- Items of a STACK or PAGE command that have not started end with a status; those that have run to their end. -/
def Mach.stopItems (m : Mach) (st : Nat) (c : Issued) : Mach :=
  if !c.started then m.endUnstarted st c
  else if c.cmd.opcode = 2 then m.endWaiting st c
  else m.setIssued { c with extra := [st] }

/-- A COPY that has not ended stops with the groups it has written. -/
def Mach.stopCopy (m : Mach) (st : Nat) (c : Issued) : Mach :=
  ({ m with farOps := m.farOps.filter (fun f => f.cmdId != c.id), requests := m.requests.filter (fun r => r.cmdId != c.id) } : Mach).endWith st c

/-- Issued commands of partition p that have not ended. -/
def Mach.openCommands (m : Mach) (p : Nat) : List Issued := m.sq.issued.filter (fun c => c.part == p && c.result.isNone)

/-- The drain phase of a switch begins for partition p (R279). -/
def Mach.drainStart (m : Mach) (p : Nat) : Mach :=
  (m.openCommands p).foldl (fun m c =>
    match c.cmd.opcode with
    | 0x02 => m.stopItems stPreempted c
    | 0x0A => m.stopItems stPreempted c
    | 0x03 => m.stopCopy stPreempted c
    | _ => m) m

/-- A partition is pre-empted: the cause PREEMPT for it and for the one that comes in (R40, R278). -/
def Mach.preempt (m : Mach) (a b : Nat) : Mach :=
  let m := { m with sq := { m.sq with preempts := m.sq.preempts ++ [(⟨a, b⟩ : Preempt)] } }
  let m := (m.setCauses a causePreempt).setCauses b causePreempt
  m.takeOutWhere causePreempt (fun c => c.part == a || c.part == b)

/-! ## The switch -/

/-- Cores of a partition that run and have not reached their switch point. -/
def Mach.undrained (m : Mach) (p : Nat) : List Nat :=
  (List.range 192).filter (fun n => (m.core n).run && !(m.core n).atSwitch && (m.core n).kernel.isSome && m.corePart n == p)

/-- Started items and far-tier accesses of a partition's STACK and PAGE commands. -/
def Mach.unsettled (m : Mach) (p : Nat) : Bool :=
  m.items.any (fun it => it.part == p && it.phase != .finished) || m.farOps.any (fun f => f.part == p)

/-- OUT = IN names an enabled partition that is switched out and in conflict with no resident one (R278). -/
def Mach.switchInOnly (m : Mach) (a b : Nat) : Bool :=
  a == b && m.enabled b && !m.resident b && !(List.range 16).any (fun q => m.resident q && m.conflict b q)

/-- A request that R278 refuses. -/
def Mach.switchRefused (m : Mach) (a b : Nat) : Bool :=
  m.flag .SEC_PSW_BUSY || (!m.resident a && !m.switchInOnly a b) || !m.enabled b || (b != a && m.resident b) ||
    (List.range 16).any (fun q => q != a && q != b && m.resident q && m.conflict b q)

/-- SEC_PSW.GO with its fields (R278). A refused request leaves a running switch with the partitions it was accepted for. -/
def switchGo (a b : Nat) (m : Mach) : Mach :=
  let m := (m.wr .SEC_PSW_OUT a).wr .SEC_PSW_IN b
  let a := m.rd .SEC_PSW_OUT
  let b := m.rd .SEC_PSW_IN
  if m.switchRefused a b then (m.wr .SEC_PSW_REFUSED 1).badAcc
  else { ((m.wr .SEC_PSW_BUSY 1).wr .SEC_PSW_PHASE 1).preempt a b with switch := { m.switch with out := a, inn := b, at_ := m.tick } }

/-- Bytes and bundles of a physical core. -/
def Mach.coreStore (m : Mach) (n : Nat) : List (Nat × Byte) :=
  (m.mem.filter (fun e => decide (coreAddr n 0 ≤ e.1) && decide (e.1 < coreAddr (n + 1) 0))).map (fun e => (e.1 - coreAddr n 0, e.2))
def Mach.coreCode (m : Mach) (n : Nat) : List (Nat × Bundle) :=
  (m.istore.filter (fun e => e.1 / 4096 == n)).map (fun e => (e.1 % 4096, e.2))
/-- Error marks of the codewords of a core's instruction store. -/
def Mach.coreCodeWrong (m : Mach) (n : Nat) : List (Nat × Nat) :=
  (m.istoreWrong.filter (fun e => e.1 / 8192 == n)).map (fun e => (e.1 % 8192, e.2))

/-- A physical core with core store and instruction store all zero and no kernel (R281). -/
def Mach.wipeCore (m : Mach) (n : Nat) : Mach :=
  { m with
    mem := m.mem.filter (fun e => !(decide (coreAddr n 0 ≤ e.1) && decide (e.1 < coreAddr (n + 1) 0)))
    wrong := m.wrong.filter (fun e => !(decide (coreAddr n 0 ≤ e.1 * 16) && decide (e.1 * 16 < coreAddr (n + 1) 0)))
    istore := m.istore.filter (fun e => e.1 / 4096 != n)
    istoreWrong := m.istoreWrong.filter (fun e => e.1 / 8192 != n)
  }.setCore n Core.idle

/-- Bytes of no stated layout at an address: free values (log entry 20). -/
def Mach.freeBytes (m : Mach) (a n : Nat) : Mach :=
  let bs := (List.range n).map (fun i => BitVec.ofNat 8 (Config.freeValue (m.fresh + i)))
  ({ m with fresh := m.fresh + n }.writeLocal 0 false a bs).1

/-- A partition's dirty lines are written back (R280). -/
def Mach.flushPart (m : Mach) (p : Nat) : Mach :=
  (m.cache.filter (fun e => e.2.part == p && e.2.dirty != 0)).foldl (fun m e =>
    let w := m.flushUnit e.1
    if w.2 then w.1.postUe p none (e.1 * 32) (e.1 * 32) else w.1) m

/-- The lines that partition a keeps in the cache are recorded (R280). -/
def Mach.recordKept (m : Mach) (a : Nat) : Mach :=
  let own := (m.cache.filter (fun e => e.2.part == a && e.2.held != 0)).map (fun e => (a, e.1))
  { m with switch := { m.switch with kept := m.switch.kept.filter (fun e => e.1 != a) ++ own } }

/-- The recorded lines of partition b are reloaded (R280). -/
def Mach.reloadKept (m : Mach) (b : Nat) : Mach :=
  let own := m.switch.kept.filter (fun e => e.1 == b)
  own.foldl (fun m e => m.touchUnit b 0 (e.2 * 32)) { m with switch := { m.switch with kept := m.switch.kept.filter (fun e => e.1 != b) } }

/-- The cores of partition a are saved in logical order, the addresses of its keep lines recorded and its dirty lines written back (R280). -/
def Mach.saveCores (m : Mach) (a : Nat) : Mach :=
  let ls := (List.range 176).filter (fun l => (m.partLogical a).contains l)
  let recs := ls.filterMap (fun l => (m.physOf l).map (fun n => (⟨a, l, m.core n, m.coreStore n, m.coreCode n, m.coreCodeWrong n⟩ : SavedCore)))
  let m := m.freeBytes (m.rd .SEC_PART_SAVE_BASE a) (ls.length * 2621440)
  let m := { m with saved := m.saved.filter (fun (s : SavedCore) => s.part != a) ++ recs }
  let m := (ls.filterMap m.physOf).foldl (fun m n => m.setCore n Core.idle) m
  (m.recordKept a).flushPart a

/-- Retirements that wait for a switch of partition p take effect (R149). -/
def Mach.applyRetirements (m : Mach) (p : Nat) : Mach :=
  (List.range 192).foldl (fun m n => if (m.map n).st == 3 && (m.partLogical p).contains (m.map n).logical then m.retireNow n else m) m

/-- One logical core of the incoming partition: its record restored, or all zero (R281). -/
def Mach.restoreCore (m : Mach) (b l : Nat) : Mach :=
  match m.physOf l with
  | none => m
  | some n =>
    let m := m.wipeCore n
    match m.saved.find? (fun s => s.part == b && s.logical == l) with
    | none => m
    | some s =>
      let mem := s.store.foldl (fun l e => nset (fun _ => 0) l (coreAddr n e.1) e.2) m.mem
      let code := s.code.foldl (fun l e => nset (fun _ => 0) l (n * 4096 + e.1) e.2) m.istore
      let wrong := s.codeWrong.foldl (fun l e => nset (fun _ => 0) l (n * 8192 + e.1) e.2) m.istoreWrong
      let m : Mach := { m with mem := mem, istore := code, istoreWrong := wrong }
      m.setCore n { s.core with atSwitch := false }

/-- A KERNEL in flight on a group that has lost a core ends with ST_CORE_ABSENT, and the group's other cores stop (R149). -/
def Mach.endUnbacked (m : Mach) (b : Nat) : Mach :=
  ((m.openCommands b).filter (fun c => c.cmd.opcode == 1 && c.started && (m.groupPhys b (c.queue - 4)).any Option.isNone)).foldl (fun m c =>
    ((m.kernelCores c).foldl Mach.stopCore { m with groupStops := m.groupStops.filter (fun x => x.cmdId != c.id) }).kernelEnds c stCoreAbsent) m

/-- Partition b can become resident at the end of a switch that takes a out: still enabled, and in conflict with none that has become resident meanwhile (R258; log entry 130). -/
def Mach.mayEnter (m : Mach) (a b : Nat) : Bool :=
  m.enabled b && !(List.range 16).any (fun q => q != a && q != b && m.resident q && m.conflict b q)

/-- The outgoing partition leaves, and the incoming one enters: its domains started, its cores restored and its recorded lines reloaded, and it becomes resident (R280). -/
def Mach.restoreCores (m : Mach) (a b : Nat) : Mach :=
  let m := (m.applyRetirements a).applyRetirements b
  let enters := m.mayEnter a b
  let m := m.wr .SEC_PART_CTL_RESIDENT 0 a
  if enters then
    let ls := (List.range 176).filter (fun l => (m.partLogical b).contains l)
    let m := ls.foldl (fun m l => m.restoreCore b l) m
    let m := { m with saved := m.saved.filter (fun s => s.part != b) }
    let m := (ls.filterMap m.physOf).foldl (fun m n => m.startDom n) m
    ((m.reloadKept b).endUnbacked b).wr .SEC_PART_CTL_RESIDENT 1 b
  else m

/-- KERNELs that waited for their partition start, where their domains run. -/
def Mach.startKernels (m : Mach) (p : Nat) : Mach := (List.range 4).foldl (fun m g => m.startNext p (4 + g)) m

/-- The present phase of a switch ends and the next begins; a phase whose work is not over goes on (R280). -/
def switchPhase (m : Mach) : Mach :=
  if !m.flag .SEC_PSW_BUSY then m
  else
    let a := m.switch.out
    let b := m.switch.inn
    match m.rd .SEC_PSW_PHASE with
    | 1 => if m.switch.at_ = m.tick then m else if m.resident a then (m.wr .SEC_PSW_PHASE 2).drainStart a else m.wr .SEC_PSW_PHASE 5
    | 2 => if (m.undrained a).isEmpty then m.wr .SEC_PSW_PHASE 3 else m
    | 3 => if m.unsettled a then m else m.wr .SEC_PSW_PHASE 4
    | 4 => (m.saveCores a).wr .SEC_PSW_PHASE 5
    | _ =>
      let m := m.restoreCores a b
      let m := ((m.wr .SEC_PSW_BUSY 0).wr .SEC_PSW_PHASE 0).wr .SEC_PSW_LASTDUR ((m.tick - m.switch.at_) * 100)
      ({ m with switch := { m.switch with endedAt := some m.tick } } : Mach).startKernels b

/-- Tick of the request that makes core n's partition drain, when one does. -/
def Mach.drainSince (m : Mach) (p : Nat) : Option Nat :=
  if m.flag .SEC_PSW_BUSY && m.switch.out == p && decide (m.rd .SEC_PSW_PHASE ≤ 2) then some m.switch.at_
  else match m.selfCheck with
    | some s => if s.parts.contains p then some s.start else none
    | none => none

/-- A core that has not reached `sy.swpt` within LIMIT ticks: its group stops and the KERNEL ends with ST_PREEMPTED (R279). -/
def drainForce (n : Nat) (m : Mach) : Mach :=
  let p := m.corePart n
  match m.drainSince p, m.kernelOf n with
  | some t, some c =>
    if (m.undrained p).contains n && decide (t + m.rd .SEC_PSW_LIMIT ≤ m.tick) then
      let m : Mach := { (m.kernelCores c).foldl Mach.stopCore m with groupStops := m.groupStops.filter (fun x => x.cmdId != c.id) }
      (m.kernelEnds c stPreempted).inc .SEC_PSW_FORCED
    else m
  | _, _ => m

end Sys2Proof.Machine
end

