-- ==== Sys2Proof/Machine/Faults.lean ====
section
/-! DEFINITION. The fault hub: acknowledgement and stop bits (R346, R348), retirements (R337, R338), checkers and the self-check (R340 to R343), lockstep and seam (R351, R353). -/
namespace Sys2Proof.Machine

/-- FAULT_ACK.GO closes a partition's record slot. -/
def faultAck (p : Nat) (m : Mach) : Mach := m.clrB .FAULT_STATUS_OPEN p

/-- Bits of FAULT_STOP written 1: each set one clears and START goes out for its partition. -/
def faultStopClear (mask : Nat) (m : Mach) : Mach :=
  (List.range 16).foldl (fun m p =>
    if bit mask p && bit (m.rd .FAULT_STOP_STOPPED) p then (m.clrB .FAULT_STOP_STOPPED p).sendStop 4 (2 ^ p) else m) m

/-! ## Retirements -/

/-- Spare rows used in a bank. -/
def Mach.sparesUsed (m : Mach) (n b : Nat) : Nat := nget (fun _ => 0) (m.stack n).sparesUsed b

/-- The fields of FAULT_RETIRE as a GO writes them. -/
def Mach.setRetire (m : Mach) (kind n b row : Nat) : Mach :=
  (((m.wr .FAULT_RETIRE_KIND kind).wr .FAULT_RETIRE_STACK n).wr .FAULT_RETIRE_BANK b).wr .FAULT_RETIRE_ROW row

/-- FAULT_RETIRE.GO with KIND 1: the row is mapped to its bank's next spare, and its copy waits for its slots. -/
def retireRow (n b row : Nat) (m : Mach) : Mach :=
  let m := m.setRetire 1 n b row
  let used := m.sparesUsed n b
  if m.rowCopy.isSome then m.wr .FAULT_RETST_REFUSED 1
  else if 32 ≤ used then ((m.wr .FAULT_RETST_REFUSED 1).wr .FAULT_RETST_SPARES 0).post ⟨0, 0, 0, 1, n, fkSpareOut⟩
  else
    let s := m.stack n
    let m := m.setStack n { s with sparesUsed := nset (fun _ => 0) s.sparesUsed b (used + 1) }
    { (m.wr .FAULT_RETST_BUSY 1).wr .FAULT_RETST_SPARES (32 - used - 1) with rowCopy := some ⟨n, b, row, false⟩ }

/-- Codewords of a row: the copy corrects what can be corrected, and copies the rest uncorrectable. -/
def Mach.correctRow (m : Mach) (n b row : Nat) : Mach :=
  let lo := bankAddr n b (row * 2048) / 16
  { m with wrong := m.wrong.filter (fun e => !(decide (lo ≤ e.1) && decide (e.1 < lo + 128) && e.2 == 1)) }

/-- A slot that the cool calendar leaves idle: the row is read, or written to the spare; under the hot calendar the copy waits. -/
def rowCopySlot (m : Mach) : Mach :=
  match m.rowCopy with
  | none => m
  | some r =>
    if (m.stack r.stack).hot then m
    else if !r.read then { m.noteRead true (bankAddr r.stack r.bank (r.row * 2048)) 2048 with rowCopy := some { r with read := true } }
    else
      let m := m.correctRow r.stack r.bank r.row
      let s := m.stack r.stack
      let m := m.setStack r.stack { s with remapped := (r.bank * 32768 + r.row) :: s.remapped }
      (({ m with rowCopy := none }.wr .FAULT_RETST_BUSY 0).wr .FAULT_RETST_DONE 1).post ⟨0, 0, 0, 1, r.stack, fkRetired⟩

/-- FAULT_RETIRE.GO with KIND 2. -/
def retireBank (n b : Nat) (m : Mach) : Mach := (m.setRetire 2 n b (m.rd .FAULT_RETIRE_ROW)).offlineBank n b

/-- FAULT_RETIRE.GO with KIND 3. -/
def retireStack (n : Nat) (m : Mach) : Mach := (m.setRetire 3 n (m.rd .FAULT_RETIRE_BANK) (m.rd .FAULT_RETIRE_ROW)).offlineStack n 2

/-! ## Checkers (R340 to R342) -/

/-- Dirty lines of die d are written back before its cache goes to bypass. -/
def Mach.bypassCache (m : Mach) (d : Nat) : Mach :=
  let m := (m.cache.filter (fun e => isStackC (e.1 * 32) && cStack (e.1 * 32) / 6 == d)).foldl (fun m e =>
    let w := m.flushUnit e.1
    if w.2 then w.1.postUe 0 none (e.1 * 32) (e.1 * 32) else w.1) m
  m.setB .FAULT_STATUS_CACHEBYP d

/-- The record of a part that failed its test, where the reaction posts none of its own. -/
def Mach.postChecker (m : Mach) (cls inst : Nat) : Mach := m.post ⟨0, 0, 0, cls, inst, fkChecker⟩

/-- Source class and instance of a checker part (R9). A checker of a bank engine's scratch is its bank quadrant's. The session-table checker and the lockstep comparators
belong to the control cluster: class 7, instance 0 (log entry 80). -/
def checkerSource : CheckerPart → Nat × Nat
  | .stack n => (1, n)
  | .quad n q => (2, n * 4 + q)
  | .cache d => (3, d)
  | .core n => (0, n)
  | .hub => (7, 0)

/-- A checker or comparator fails a test (R342); in a Halt it is recorded and nothing more (R354). -/
def Mach.checkerFails (m : Mach) (k : CheckerPart) : Mach :=
  if m.flag .FAULT_STATUS_HALT then m.postChecker (checkerSource k).1 (checkerSource k).2
  else match k with
    | .stack n => m.fenceStack n 1 n fkChecker
    | .quad n q => m.fenceStack n 2 (n * 4 + q) fkChecker
    | .cache d => (m.bypassCache d).postChecker 3 d
    | .core n =>
      let m := coreRetire n m
      if (m.core n).run then m.trapCore n fkChecker else m.postChecker 0 n
    | .hub => m.haltWith 7 0 fkChecker

/-- The periodic test while DIAGEN is 1 (R341): the parts that failed. -/
def diagTest (failed : List CheckerPart) (m : Mach) : Mach :=
  if m.flag .FAULT_CFG_DIAGEN then failed.foldl Mach.checkerFails m else m

/-- The start-up test (R340, R342): a failing part of the control cluster leaves the block in Twilight. -/
def startupTest (failed : List CheckerPart) (m : Mach) : Mach :=
  failed.foldl (fun m k =>
    if k = .hub then { m.postChecker 7 0 with resets := { m.resets with startFail := true } } else m.checkerFails k) m

/-! ## Lockstep and seam (R351, R353) -/

/-- The sequencer's lockstep pair disagrees (R351): the record in each partition's stream names that partition as the instance (R9; log entry 80). -/
def lockstepMismatch (m : Mach) : Mach := m.haltSequencer fkLockstepSeq

/-- A mismatch in a pair of management cores (0 or 1): the pair stops. -/
def mcMismatch (k : Nat) (m : Mach) : Mach :=
  if m.flag .FAULT_CFG_LOCKSTEP && !bit m.trust.mcStopped k then
    { m with trust := { m.trust with mcStopped := setBit m.trust.mcStopped k } }.post ⟨0, 0, 0, 7, 2 * k, fkLockstepMc⟩
  else m

def seamCrc (dir : Nat) (m : Mach) : Mach := m.haltWith 12 dir fkSeamCrc

/-! ## The self-check (R343) -/

/-- The self-check starts: every resident partition drains as for a switch. -/
def Mach.selfCheckStart (m : Mach) : Mach :=
  if m.flag .FAULT_SELF_BUSY then m
  else
    let ps := (List.range 16).filter m.resident
    let m := { m.wr .FAULT_SELF_BUSY 1 with selfCheck := some ⟨m.tick, ps, false⟩ }
    ps.foldl (fun m p => (m.preempt p p).drainStart p) m

/-- Every partition of the self-check has drained and settled. -/
def Mach.selfDrained (m : Mach) (s : SelfCheck) : Bool := s.parts.all (fun p => (m.undrained p).isEmpty && !m.unsettled p)

/-- The partitions of a self-check are switched back in. -/
def Mach.switchBack (m : Mach) (s : SelfCheck) : Mach :=
  let cores := m.cores.map (fun e => (e.1, { e.2 with atSwitch := false }))
  let m : Mach := { m with selfCheck := none, cores := cores }
  s.parts.foldl (fun m p => m.startKernels p) m

end Sys2Proof.Machine
end

