-- ==== Sys2Proof/Machine/Pair.lean ====
section
/-! DEFINITION. The redundant pair (R303 to R306): digests, release and withholding, CHECK and FENCE; and the end of the self-check (R343). -/
namespace Sys2Proof.Machine

/-- A frame for the twin leaves on the pair port (R288, R303), under the key slot that partition 0 shares with the twin's partition 0 (R297; log entry 128). A block without
firmware originates none (R20). -/
def Mach.sendTwin (m : Mach) (typ : Nat) (data : Bytes) : Mach :=
  let n := m.rd .LINK_PAIR_PORT
  if !m.firmware then m
  else m.sendOn n 3 { m.hopFrame typ data with keyslot := (m.slotFor 0 (m.rd .LINK_STATE_NBLOCK n) 0).getD 0 } none

/-- The 64 bytes of a DIGEST frame (R303). -/
def digestData (d : Digest) : Bytes :=
  slice d.hash 0 32 ++ toBytes 6 d.step ++ toBytes 1 d.part ++ toBytes 1 (b2n d.bad + 2 * b2n d.warn + 4 * b2n d.miss + 16 * d.actmask) ++ List.replicate 24 0

/-- The digest that 64 bytes of a DIGEST frame spell. -/
def digestOf (b : Bytes) : Digest :=
  let f := field b 39 1
  ⟨slice b 0 32, field b 32 6, field b 38 1 % 16, bit f 0, bit f 1, bit f 2, f / 16⟩

/-- A waiting EMIT ends with the statuses of its items. -/
def Mach.endEmit (m : Mach) (w : PairWait) (sts : List Nat) : Mach :=
  let m := m.closeStep w.part
  let m := { m with pair := { m.pair with waits := m.pair.waits.filter (fun x => x.cmdId != w.cmdId), twins := m.pair.twins.filter (fun d => d.part != w.part) } }
  match m.issuedOf w.cmdId with
  | some c => m.setIssued { c with result := some (itemsStatus sts), progress := itemsDone sts, itemSt := sts.map some, items := c.cmd.p4 }
  | none => m

/-- Statuses of a waiting EMIT's items. -/
def Mach.emitSts (m : Mach) (w : PairWait) : List Nat :=
  match m.issuedOf w.cmdId with
  | some c => c.itemSt.map (fun s => s.getD stOk)
  | none => []

/-- A staged record of an EMIT that ends after the step's deadline is LATE (R270). -/
def OutRec.atEnd (late : Bool) (r : OutRec) : OutRec :=
  let f := field r.plain 13 1
  if late && !bit f 1 then { r with plain := putBytes r.plain 13 (toBytes 1 (setBit f 1)), after := { r.after with lateSteps := satAdd 16 r.after.lateSteps 1 } } else r

/-- The staged records go to the rings, but for a session that has its one record, and the entries take what EMIT made of them (R21, R304). -/
def Mach.release (m : Mach) (w : PairWait) : Mach :=
  let m' := (w.staged.map (OutRec.atEnd (m.stepLate w.part))).foldl (fun m r => if (m.sess r.session).wdr then m else (m.sendRecord w.part r).setSess r.session r.after) m
  m'.endEmit w (m.emitSts w)

/-- A withdraw marker for every listed session without one; the staged records are dropped. -/
def Mach.withhold (m : Mach) (w : PairWait) (st : Nat) : Mach :=
  let sts := (m.mon w.part).list.map (fun s => if (m.sess s.1).wdr then stWithdrawn else st)
  (m.withdrawAll w.part st).endEmit w sts

/-- A mismatch: output withheld, counted, and the self-check started (R304, R305). -/
def Mach.pairMismatch (m : Mach) (w : PairWait) : Mach :=
  let step := match w.own with | some o => o.step | none => m.rd .SEQR_STEP_NUM w.part
  let m := (m.withhold w stPairMismatch).inc .LINK_PAIR_MISMATCH
  { (m.wr .LINK_PAIR_STATE 2).selfCheckStart with pair := { m.pair with ownCheck := none, checkAt := m.tick, checkStep := step } }

/-- The twin's digest of the partition and STEP of a waiting EMIT. -/
def Mach.twinOf (m : Mach) (o : Digest) : Option Digest := m.pair.twins.find? (fun d => d.part == o.part && d.step == o.step)

/-- The own digest of a waiting EMIT meets the twin's, as far as both are there (R304). -/
def Mach.pairCompare (m : Mach) (w : PairWait) : Mach :=
  match w.own with
  | none => m
  | some o =>
    if o.bad then m.withhold w stWithdrawn
    else match m.twinOf o with
      | none => m
      | some t =>
        let m := m.wr .LINK_PAIR_LASTSTEP o.step
        if t.bad || t.hash == slice o.hash 0 32 then m.release w else m.pairMismatch w

/-- The own digest of the oldest EMIT without one is ready and goes to the twin (R304). -/
def digestReady (m : Mach) : Mach :=
  match m.pair.waits.find? (fun w => w.own.isNone) with
  | none => m
  | some w =>
    let mon := m.mon w.part
    let d : Digest :=
      ⟨slice (Config.sha512 ((w.staged.map digestBytes).flatten)) 0 32, m.rd .SEQR_STEP_NUM w.part, w.part, mon.bad, mon.warned, mon.missed, mon.fired⟩
    let m := m.sendTwin 0x20 (digestData d)
    let w' : PairWait := { w with own := some d, sentAt := m.tick }
    ({ m with pair := { m.pair with waits := m.pair.waits.map (fun x => if x.cmdId = w.cmdId then w' else x) } } : Mach).pairCompare w'

/-- A protected frame of the pair arrives on a port: on any other port it is discarded (R288). -/
def Mach.arrivePair (m : Mach) (n : Nat) (f : Frame) (k : Bytes → Mach → Mach) : Mach :=
  m.arriveHop n (fun m =>
    if m.flag .LINK_PAIR_ENABLE && m.rd .LINK_PAIR_PORT == n then m.arriveSealed n f k else m.inc .LINK_DISCARD_ROUTE 1 n)

/-- The twin's digest: of the open step of its partition, held until the EMIT of that step has its own; another is discarded (R304, R307). -/
def Mach.takeDigest (m : Mach) (n : Nat) (d : Digest) : Mach :=
  if m.flag .SEQR_STEP_OPEN d.part && m.rd .SEQR_STEP_NUM d.part == d.step then
    let m := m.setMon d.part { m.mon d.part with twin := some (d.actmask, d.warn, d.miss) }
    let m : Mach := { m with pair := { m.pair with twins := d :: m.pair.twins.filter (fun x => x.part != d.part) } }
    match m.pair.waits.find? (fun w => w.part == d.part) with
    | some w => m.pairCompare w
    | none => m
  else m.postLink n fkPairSeq

/-- The twin's DIGEST frame. -/
def digestFrame (n : Nat) (f : Frame) (m : Mach) : Mach := m.arrivePair n f (fun data m => m.takeDigest n (digestOf data))

/-- The twin's digest has not arrived within PAIR.WAIT ticks of sending: a bad own digest withholds, one in SOLO releases, any other is as a mismatch (R304, R305). -/
def pairWaitExpiry (m : Mach) : Mach :=
  match m.pair.waits.find? (fun w => w.own.isSome && decide (w.sentAt + m.rd .LINK_PAIR_WAIT ≤ m.tick)) with
  | some w =>
    if w.own.any (fun o => o.bad) then m.withhold w stWithdrawn
    else if m.rd .LINK_PAIR_STATE = 3 then m.release w
    else m.pairMismatch w
  | none => m

/-! ## CHECK, FENCE and the end of the self-check (R305, R343) -/

/-- The block fences itself: FENCE and STOP frames, and a Halt that PAIR.STATE shows (R305, R421). -/
def Mach.pairFence (m : Mach) : Mach :=
  let m := (m.sendTwin 0x22 []).sendStop 3 0xFFFF
  (m.wr .LINK_PAIR_STATE 4).haltWith 7 0 fkPairFence

/-- The pair's exchange ends in a state; what was heard from the twin is used up. -/
def Mach.pairSettle (m : Mach) (state : Nat) : Mach :=
  { m.wr .LINK_PAIR_STATE state with pair := { m.pair with ownCheck := none, twinCheck := none } }

/-- The twin's word on the check of the mismatch at hand: a CHECK of its STEP, or a FENCE. -/
def Pair.heard (x : Pair) : Option Verdict :=
  match x.twinCheck with
  | some (v, none) => some v
  | some (v, some step) => if step = x.checkStep then some v else none
  | none => none

/-- Both results of a check are weighed, as far as they are there: own pass with the twin's fail or FENCE is SOLO, with its pass PAIRED. -/
def Mach.pairWeigh (m : Mach) : Mach :=
  if m.rd .LINK_PAIR_STATE = 2 ∧ m.pair.ownCheck = some .pass then
    match m.pair.heard with
    | some .fail => m.pairSettle 3
    | some .pass => m.pairSettle 1
    | none => m
  else m

/-- The twin's word is taken and weighed. -/
def Mach.takeCheck (m : Mach) (v : Verdict) (step : Option Nat) : Mach :=
  ({ m with pair := { m.pair with twinCheck := some (v, step) } } : Mach).pairWeigh

/-- The twin's CHECK frame: its result, and the STEP of the mismatch that it checked after (R288). -/
def checkFrame (n : Nat) (f : Frame) (m : Mach) : Mach :=
  m.arrivePair n f (fun data m => m.takeCheck (if field data 0 1 = 0 then .pass else .fail) (some (field data 8 6)))

/-- The twin's FENCE frame. -/
def fenceFrame (n : Nat) (f : Frame) (m : Mach) : Mach := m.arrivePair n f (fun _ m => m.takeCheck .fail none)

/-- No word from the twin within PAIR.GRACE ticks: SOLO (R305). -/
def pairGraceExpiry (m : Mach) : Mach :=
  if m.rd .LINK_PAIR_STATE = 2 ∧ m.pair.ownCheck = some .pass ∧ m.pair.heard = none ∧ m.pair.checkAt + m.rd .LINK_PAIR_GRACE ≤ m.tick then
    (((m.pairSettle 3).inc .LINK_PAIR_LOST).postLink (m.rd .LINK_PAIR_PORT) fkPairLost)
  else m

/-- The own result in pair mode goes to the twin; a fail fences the block. -/
def Mach.pairResult (m : Mach) (v : Verdict) : Mach :=
  let step := m.pair.checkStep
  let m := if m.rd .LINK_PAIR_STATE = 2 then m.sendTwin 0x21 (toBytes 8 (if v = .pass then 0 else 1) ++ toBytes 6 step ++ List.replicate 18 0) else m
  match v with
  | .fail => m.pairFence
  | .pass => ({ m with pair := { m.pair with ownCheck := if m.rd .LINK_PAIR_STATE = 2 then some .pass else none } } : Mach).pairWeigh

/-- The self-check ends, once every partition has drained: result, records, and the partitions back in (R343). -/
def selfCheckDone (failed : List CheckerPart) (m : Mach) : Mach :=
  match m.selfCheck with
  | none => m
  | some s =>
    if !m.selfDrained s then m
    else
      let ok := failed.isEmpty && !s.faulted
      let v : Verdict := if ok then .pass else .fail
      let m := ((m.wr .FAULT_SELF_BUSY 0).wr .FAULT_SELF_RESULT (if ok then 1 else 2)).wr .FAULT_SELF_LASTDUR ((m.tick - s.start) / 10)
      let m := if ok then m else m.post ⟨0, 0, 0, 7, 0, fkSelfcheck⟩
      let m := m.switchBack s
      if m.flag .LINK_PAIR_ENABLE then m.pairResult v else failed.foldl Mach.checkerFails m

/-- LINK[0].PAIR.ENABLE is written: pair mode begins paired, and ends off (R305). -/
def Mach.pairEnable (m : Mach) (on : Bool) : Mach :=
  if m.flag .LINK_PAIR_ENABLE = on then m
  else
    let m := (m.wr .LINK_PAIR_ENABLE (b2n on)).wr .LINK_PAIR_STATE (b2n on)
    if on then { m with pair := Pair.reset } else m

end Sys2Proof.Machine
end

