-- ==== Sys2Proof/Machine/Tick.lean ====
section
/-! DEFINITION. The time base (R22 to R29), its refresh phase (R47), SYNC (R298, R299), and the tick boundary with its evaluation of all queues (R30, R32, R274). -/
namespace Sys2Proof.Machine

/-! ## Steps of the time base (R27, R47) -/

/-- A move of the time base lengthens the interval between two refreshes of some quadrant of a stack beyond its calendar's. -/
def realigns (hot : Bool) (old new : Nat) : Bool :=
  let period := if hot then 3900 else 7800
  (List.range 4).any (fun q =>
    let d := (old + 7800 - q * 975) % period
    let n := (period - (new + 7800 - q * 975) % period) % period
    decide (period < d + n))

/-- The time base steps: stacks whose refresh interval would grow too long insert an extra slot. What is measured in true time (the age of a SYNC source, the time since release, the times of a state's entry and of Dawn, a conversion) does not jump with it (log entry 27). -/
def Mach.stepTime (m : Mach) (ns : Nat) : Mach :=
  let old := m.time.ns
  let m := (List.range 12).foldl (fun m n => if realigns (m.stack n).hot old ns then m.setB .TIME_REFR_REALIGN n else m) m
  let d : Int := ns - old
  let s := m.time.sync
  let s : Sync := { s with heard := s.heard.map (fun h => { h with heardAt := ((h.heardAt : Int) + d / 100).toNat }), since := ((s.since : Int) + d / 100).toNat }
  let moved (t : Nat) : Nat := ((t : Int) + d / 100).toNat
  let w := m.power
  let w : Power := { w with acceptedAt := moved w.acceptedAt, dawnAt := w.dawnAt.map moved, stageAt := moved w.stageAt, convs := w.convs.map (fun k => { k with start := moved k.start }) }
  { m with time := { m.time with ns := ns, sync := s }, power := w, trust := { m.trust with releaseNs := m.trust.releaseNs + d } }

/-- A command in a ring, from its head to its tail, with a non-zero issue tick. -/
def Mach.ringScheduled (m : Mach) (p q : Nat) : Bool :=
  let size := m.ringSize p q
  let head := m.rd .SEQR_QHEAD_HEAD p q
  (List.range ((m.rd .SEQR_QTAIL_TAIL p q + size - head % size) % size)).any (fun i =>
    (m.resolve p q (cmdOf (m.read false (m.rd .SEQR_QBASE_ADDR p q + (head + i) % size * 64) 64))).issue != 0)

/-- A load is accepted: grandmaster or free-run, and no queue holds a command with a non-zero issue tick (R27). -/
def Mach.loadAllowed (m : Mach) : Bool :=
  m.rd .TIME_CTL_ROLE != 0 && m.sq.issued.all (fun c => c.sched == 0) &&
    (List.range 320).all (fun k => !m.ringScheduled (k / 20) (k % 20))

/-- The time base at the next tick boundary, or at what an accepted load sets. -/
def Mach.nextTick (m : Mach) : Mach :=
  if m.time.loadReq then
    let ok := m.loadAllowed
    let m : Mach := { m with time := { m.time with loadReq := false } }
    if ok then m.stepTime (m.rd .TIME_SET_NS) else ({ m with time := { m.time with ns := (m.time.ns / 100 + 1) * 100 } } : Mach).badAcc
  else { m with time := { m.time with ns := (m.time.ns / 100 + 1) * 100 } }

/-- TIME_CTL.LOAD written 1. -/
def timeLoad (m : Mach) : Mach := { m with time := { m.time with loadReq := true } }

/-! ## Synchronisation (R25, R26, R298, R299) -/

/-- A write of TIME_CTL.ROLE (R26). -/
def roleWrite (v : Nat) (m : Mach) : Mach :=
  let old := m.rd .TIME_CTL_ROLE
  if v % 4 = 3 then m.badAcc
  else if v % 4 = old then m
  else
    let m := m.wr .TIME_CTL_ROLE v
    match v % 4 with
    | 1 => m.syncTo 2
    | 2 => m.syncTo 0
    | _ => if old = 1 then m.syncTo 3 else m

/-- Sources heard in the last 100 µs. -/
def Mach.liveSources (m : Mach) : List SyncHeard := m.time.sync.heard.filter (fun h => decide (m.tick < h.heardAt + 1000))

/-- The better of two sources: lowest GM, then DIST, then port (R298). -/
def SyncHeard.better (a b : SyncHeard) : SyncHeard :=
  if a.gm < b.gm ∨ (a.gm = b.gm ∧ (a.dist < b.dist ∨ (a.dist = b.dist ∧ a.port ≤ b.port))) then a else b

/-- The source in use. -/
def Mach.source (m : Mach) : Option SyncHeard :=
  match m.liveSources with
  | [] => none
  | h :: rest => some (rest.foldl SyncHeard.better h)

/-- TIME_SYNC.OFFSET in units of 0.25 ns; one beyond its 16 bits is a free value. -/
def Mach.writeOffset (m : Mach) (o : Int) : Mach :=
  if -32768 ≤ 4 * o ∧ 4 * o < 32768 then m.wr .TIME_SYNC_OFFSET (ofSigned 16 (4 * o))
  else
    let r := m.draw
    r.2.wr .TIME_SYNC_OFFSET r.1

/-- A frame of the source, port n, is accepted with an offset in ns (R299). A LOCKED follower that has chosen another source stays LOCKED where it agrees, else is in HOLDOVER. -/
def Mach.acceptSync (m : Mach) (n : Nat) (o : Int) : Mach :=
  let near := decide (o.natAbs ≤ 4)
  let m := m.writeOffset o
  let s := m.time.sync
  let k : Sync := { s with
    src := some n, accepted := s.accepted + 1, near := if near then s.near + 1 else 0, beyond := if near then 0 else s.beyond + 1, since := m.tick }
  let keep (m : Mach) (k : Sync) : Mach := { m with time := { m.time with sync := k } }
  match m.rd .TIME_SYNC_STATE with
  | 0 =>
    let m := m.syncTo 1
    keep m { m.time.sync with src := some n, accepted := 1, near := b2n near, beyond := b2n (!near) }
  | 1 =>
    if 8 ≤ k.accepted ∧ !k.stepped then
      if near then keep m { k with stepped := true }
      else keep (m.stepTime ((m.time.ns : Int) + o).toNat) { k with stepped := true, near := 0, beyond := 0 }
    else if 16 ≤ k.near then (keep m k).syncTo 2
    else keep m k
  | 2 =>
    if s.src.any (· != n) then (if near then keep m k else (keep m k).syncTo 3)
    else if 4 ≤ k.beyond then (keep m k).syncTo 1 else keep m k
  | _ => if !near then (keep m k).syncTo 1 else if 4 ≤ k.accepted then (keep m k).syncTo 2 else keep m k

/-- A SYNC frame arrives on port n, `sub` ns into the running tick (R298). -/
def syncFrame (n gm dist sender sub : Nat) (m : Mach) : Mach :=
  m.arriveHop n (fun m =>
    if m.rd .TIME_CTL_ROLE ≠ 0 ∨ 63 ≤ dist then m
    else
      let h : SyncHeard := ⟨n, gm, dist, m.tick⟩
      let m : Mach := { m with time := { m.time with sync := { m.time.sync with heard := h :: m.time.sync.heard.filter (fun x => x.port != n) } } }
      match m.source with
      | some s =>
        let m := m.wr .TIME_SYNC_PORT s.port
        let m : Mach := { m with time := { m.time with sync := { m.time.sync with gm := s.gm, dist := s.dist } } }
        if s.port = n then m.acceptSync n ((sender : Int) + 180 - ((m.tick * 100 + sub % 100 : Nat) : Int)) else m
      | none => m)

/-- Every 10 µs: SYNC on each UP port from a LOCKED block and from a grandmaster; the time goes into it as it is sent (R298). -/
def syncSend (m : Mach) : Mach :=
  let gmRole := m.rd .TIME_CTL_ROLE == 1
  if m.resets.cold || !(gmRole || m.rd .TIME_SYNC_STATE == 2) then m
  else
    let gm := if gmRole then m.rd .GLOBAL_BLOCK_NUM else m.time.sync.gm
    let dist := if gmRole then 0 else m.time.sync.dist + 1
    m.upPorts.foldl (fun m n => m.enqueue n 2 (m.hopFrame 2 (toBytes 8 0 ++ toBytes 2 gm ++ toBytes 1 dist ++ List.replicate 21 0)) none) m

/-- 100 µs without a synchronisation frame: LOCKED becomes HOLDOVER, ACQUIRING becomes FREE. -/
def syncSilence (m : Mach) : Mach :=
  if m.rd .TIME_CTL_ROLE ≠ 0 ∨ !m.liveSources.isEmpty then m
  else match m.rd .TIME_SYNC_STATE with
    | 2 => m.syncTo 3
    | 1 => m.syncTo 0
    | _ => m

/-- 1 s without a frame in HOLDOVER: FREE. -/
def holdoverTimeout (m : Mach) : Mach :=
  if m.rd .TIME_CTL_ROLE = 0 ∧ m.rd .TIME_SYNC_STATE = 3 ∧ m.time.sync.since + 10000000 ≤ m.tick then m.syncTo 0 else m

/-! ## The deadline monitor at a boundary (R273, R274) -/

/-- The entries of a warning of the last tick fire, those of a step that a BUILD has closed since with them, then a miss that is due. -/
def Mach.monitor (m : Mach) (p : Nat) : Mach :=
  let mon := m.mon p
  let m := match mon.carry with
    | some fired =>
      let m := (m.setMon p { mon with carry := none, fired := fired }).fireActions p 1
      m.setMon p { m.mon p with fired := mon.fired }
    | none => m
  let m := if mon.warnDue then (m.setMon p { m.mon p with warnDue := false }).fireActions p 1 else m
  if m.missDue p then m.miss p else m

/-- STEP_DEADLINE_MISS: the first tick at which an open step's deadline has passed. -/
def deadlineMiss (p : Nat) (m : Mach) : Mach := if m.missDue p then m.miss p else m

/-! ## The tick boundary (R12, R30, R32) -/

/-- Register writes that waited for the boundary apply, in order of arrival; event raises apply before the evaluation (R12, R89, R104). -/
def Mach.applyPending (m : Mach) : Mach :=
  let s := m.sq
  let m := s.evPend.foldl (fun m e => m.raiseEvent e.1 e.2) m
  let m := s.paramPend.foldl (fun m e => m.wr .SEQR_PARAM_VALUE e.2.2 e.1 e.2.1) m
  let m := s.tbasePend.foldl (fun m e => m.wr .SEQR_QTBASE_TICK e.2.2 e.1 e.2.1) m
  let m := s.resumePend.foldl (fun m e => m.wr .SEQR_QSTAT_HALTED 0 e.1 e.2) m
  { m with sq := { m.sq with paramPend := [], tbasePend := [], evPend := [], resumePend := [] } }

/-- The counts of the tick that ends are closed, and every tail is taken in the snapshot (R30). -/
def Mach.snapshot (m : Mach) : Mach :=
  let tails := (List.range 512).filterMap (fun k => let t := m.rd .SEQR_QTAIL_TAIL (k / 32) (k % 32); if t = 0 then none else some (k, t))
  { m with sq := { m.sq with snapTail := tails, inTick := [], inTickAll := 0, evDelta := [], tokDelta := [], heldTick := false } }

/-- Engine cycles that throttled stacks spend in the tick (R223). -/
def Mach.throttleCycles (m : Mach) : Mach :=
  (List.range 12).foldl (fun m n => if (m.stack n).throt then m.inc .STACK_THROTCYC_COUNT 70 n else m) m

/-- An uncorrectable command slot: not executed, its record carries ST_UE, OPCODE 0 and HALTED (R330). -/
def Mach.fetchFails (m : Mach) (p q a : Nat) : Mach :=
  let slot := m.rd .SEQR_QHEAD_HEAD p q
  let c : Cmd := ⟨0, 0, p, 2, 0, 0, 0, 0, 0, 0, 0, 0, 0⟩
  let x := m.newIssued p q slot c causeUe true (some stUe)
  let m := (((m.noteRead false a 64).takeSlot p q).enroll x).wr .SEQR_QSTAT_HALTED 1 p q
  let m := m.postBy ⟨p, 0, a, 10, p, fkCmdUe⟩ q 0
  (m.reactStep p).completeNew x

/-- The next command of a queue is fetched and evaluated: answers whether it issued. -/
def Mach.evaluateNext (m : Mach) (p q : Nat) : Mach × Bool :=
  if !m.mayIssue p q then (m, false)
  else
    let a := m.rd .SEQR_QBASE_ADDR p q + m.rd .SEQR_QHEAD_HEAD p q * 64
    let mir := m.mirrorAll false p none a 64
    let m := mir.2
    if m.readUe false a 64 then (m.fetchFails p q a, true)
    else
      let c := m.resolve p q (cmdOf (m.read false a 64))
      if !m.isDue p c then (m, false)
      else if c.issue != 0 && m.holdsScheduled then
        (if m.sq.heldTick then m else { m.inc .TIME_SYNC_HELD with sq := { m.sq with heldTick := true } }, false)
      else if !m.stateLets p q c then (if m.stateInForce < 3 then m.wake else m, false)
      else ((m.afterRead p 1 a 64).issue p q c (if mir.1 then causeUe else 0), true)

/-- A queue's commands in order, as long as they issue. -/
def issueQueue (p q : Nat) : Nat → Mach → Mach
  | 0, m => m
  | k + 1, m =>
    let r := m.evaluateNext p q
    if r.2 then issueQueue p q k r.1 else r.1

/-- All queues in the order of R32. -/
def Mach.evaluateAll (m : Mach) : Mach := (List.range 320).foldl (fun m k => issueQueue (k / 20) (k % 20) 4 m) m

/-- TICK_BOUNDARY. In cold reset nothing keeps time; in warm reset the always-on domain's copy counts on (R28). What ends with the running tick comes first: domains ready in it, and the trace records staged in it. -/
def tickBoundary (m : Mach) : Mach :=
  if m.resets.cold then m
  else if m.resets.warm.isSome then m.nextTick
  else
    let m := (drainTrace 4096 false m.readyDue).nextTick
    let m := m.throttleCycles.applyPending
    let m := (List.range 16).foldl Mach.monitor m.snapshot
    if m.seqAlive then m.evaluateAll else m

end Sys2Proof.Machine
end

