-- ==== Sys2Proof/Machine/Access.lean ====
section
/-! DEFINITION. Who reaches the control space and the memory (R11, R12, R369, R370, R381): the host die through its port, the firmware on the management cores. -/
namespace Sys2Proof.Machine

/-- Neither cold nor warm reset is asserted. -/
def Mach.awake (m : Mach) : Bool := !m.resets.cold && m.resets.warm.isNone

/-- The block is in Twilight (R405). -/
def Mach.twilight (m : Mach) : Bool := m.flag .RST_MODE_TWILIGHT

/-- Code runs on the management cores: main firmware, or in Twilight the ROM's and then the recovery firmware (R358, R405); not in Night or Midnight (R380), and not once both lockstep pairs have
stopped (R351). -/
def Mach.fwRuns (m : Mach) : Bool :=
  (m.firmware || m.twilight) && decide (m.stateInForce < 2) && m.trust.mcStopped % 4 != 3

/-- The host port carries traffic (R309). -/
def Mach.hostUp (m : Mach) : Bool := m.rd .UCIE_STAT_MODS != 0

def Mach.isSealed (m : Mach) (p : Nat) : Bool := m.flag .SEC_TENANT_CTL_SEALED p

/-- Lockdown (R368). -/
def Mach.lockdown (m : Mach) : Bool := (List.range 16).any m.isSealed

/-- Registers of a sealed partition's SEQR window that the host may write: QTAIL, QTBASE, PARAM, EVRAISE (R369). -/
def seqrOpen (w : Nat) : Bool :=
  (decide (w < 0x500) && (w % 0x40 / 8 == 3 || w % 0x40 / 8 == 5)) || w / 8 == 0x120 || (decide (0x1000 ≤ w) && decide (w < 0x1200))

/-- The host die may write the register at an offset (R369). Regions the table does not name hold nothing that can be written. -/
def Mach.hostMay (m : Mach) (off : Nat) : Bool :=
  if 0x00200000 ≤ off ∧ off < 0x00300000 then !m.isSealed ((off - 0x00200000) / 0x10000) || seqrOpen (off % 0x10000)
  else if 0x00400000 ≤ off ∧ off < 0x00800000 then true
  else if 0x00C00000 ≤ off ∧ off < 0x00C00018 then !m.firmware
  else if 0x00C00000 ≤ off ∧ off < 0x01000000 then
    !m.lockdown && (decide (0x00D00000 ≤ off) || (decide (0x00C80000 ≤ off) && decide (off < 0x00C82000)))
  else if 0x03100000 ≤ off ∧ off < 0x03180000 then true
  else !m.lockdown

/-- A host access that R369 or R370 refuses is counted, and recorded at most once per millisecond. -/
def Mach.countDenied (m : Mach) : Mach :=
  let m := m.inc .SEC_DENY_COUNT
  let post (m : Mach) : Mach := { m.post ⟨0, 0, 0, 8, 0, fkHostDenied⟩ with trust := { m.trust with deniedAt := some m.tick } }
  match m.trust.deniedAt with
  | some t => if m.tick < t + 10000 then m else post m
  | none => post m

/-- A control-space write of the host that R369 refuses. -/
def Mach.denied (m : Mach) : Mach := m.badAcc.countDenied

/-- A request over the host port: it wakes the block from Dusk and is served; in Night and Midnight it wakes the block and waits for Day (R381). -/
def Mach.hostRequest (m : Mach) (i : Instr) (f : Mach → Mach) : Mach :=
  if !m.awake || !m.hostUp then m
  else if 2 ≤ m.stateInForce then ({ m with power := { m.power with hostHeld := m.power.hostHeld ++ [i] } } : Mach).wake
  else f (if m.stateInForce = 1 then m.wake else m)

/-- A register access by an agent: the host's as its rights allow, the firmware's while it runs. -/
def Mach.access (m : Mach) (who : Requester) (i : Instr) (may : Mach → Bool) (f : Mach → Mach) : Mach :=
  match who with
  | .host => m.hostRequest i (fun m => if may m then f m else m.denied)
  | .fw => if m.awake && m.fwRuns then f m else m

/-- The part of the control space that the firmware reaches: in Twilight the security engine, the resets and GLOBAL, since every other part is stopped (R405); before the recovery firmware runs, the
ROM's code on the recovery core writes no more than the image's registers (R358). -/
def Mach.fwReaches (m : Mach) (off : Nat) : Bool :=
  !m.twilight || (decide (0x00C00000 ≤ off) && decide (off < 0x00C00010)) ||
    (!m.trust.firmware.isEmpty && (decide (off < 0x00100000) || (decide (0x00B00000 ≤ off) && decide (off < 0x01000000))))

/-- A write of the register at an offset by an agent. -/
def Mach.accessAt (m : Mach) (who : Requester) (i : Instr) (off : Nat) (f : Mach → Mach) : Mach :=
  m.access who i (fun m => m.hostMay off) (fun m => if who = .fw ∧ !m.fwReaches off then m.badAcc else f m)

/-- An effect that no reset in progress stops short. -/
def act (f : Mach → Mach) (m : Mach) : Mach := if m.awake then f m else m

end Sys2Proof.Machine
end

