-- ==== Sys2Proof/Machine/Host.lean ====
section
/-! DEFINITION. The host port (R309 to R314), its sideband and mailboxes (R311, R312), CXL.mem, and the far-tier port (R319 to R323). -/
namespace Sys2Proof.Machine

/-! ## Training of the host port (R309) -/

/-- Modules that carry traffic, of those that have trained: all four, the two lowest of two or three, or the only one. -/
def carrying (trained : List Nat) : List Nat := if trained.length = 4 then trained else if 2 ≤ trained.length then trained.take 2 else trained

/-- UCIE_STAT.MODS and RATE from the modules' states: all active modules run at the lower rate where one trained at 16 GT/s. -/
def Mach.setMods (m : Mach) : Mach :=
  let active := (List.range 4).filter (fun k => m.rd .UCIE_MOD_STATE k == 2)
  let slow := active.any (fun k => nget (fun _ => false) m.ucieSlow k)
  (m.wr .UCIE_STAT_MODS ((carrying active).foldl (fun s k => s + 2 ^ k) 0)).wr .UCIE_STAT_RATE (if active.isEmpty then 0 else if slow then 1 else 2)

/-- A module is marked failed, and recorded. -/
def Mach.moduleFails (m : Mach) (k : Nat) : Mach := (m.wr .UCIE_MOD_STATE 3 k).post ⟨0, 0, 0, 5, k, fkUcieMod⟩

/-- Training of the port ends: per module, whether it reached 32 GT/s and its repaired lanes, or nothing when it failed. Twilight leaves the port untrained (R405). -/
def ucieTrained (mods : List (Option (Bool × Nat))) (flit : Bool) (m : Mach) : Mach :=
  if m.twilight then m
  else
    let m := (List.range 4).foldl (fun m k =>
      match mods.getD k none with
      | some x => (m.wr .UCIE_MOD_STATE 2 k).wr .UCIE_MOD_REPAIRED x.2 k
      | none => m.moduleFails k) m
    let slow := (List.range 4).filter (fun k => match mods.getD k none with | some x => !x.1 | none => false)
    ({ m with ucieSlow := slow.map (fun k => (k, true)) } : Mach).setMods.wr .UCIE_STAT_FLIT (b2n flit)

/-- A module fails: the port goes on with the rest (R309, R324). -/
def ucieModuleFail (k : Nat) (m : Mach) : Mach := (m.moduleFails k).setMods

/-- A flit with a CRC error is retried (R310). -/
def linkLevelRetry (m : Mach) : Mach := if m.hostUp then (m.inc .UCIE_ERR_CRC).inc .UCIE_ERR_RETRY else m

/-! ## Sideband (R311) -/

def Mach.answer (m : Mach) (kind : Nat) (body : Bytes) : Mach := m.emit (.message kind body)

/-- The identity answer (log entry 19): GLOBAL_ID, GLOBAL_REV and GLOBAL_BLOCK.NUM, 8 bytes each. -/
def Mach.identityBody (m : Mach) : Bytes :=
  toBytes 8 (m.rd .GLOBAL_ID_VENDOR + m.rd .GLOBAL_ID_DEVICE * 2 ^ 16) ++
    toBytes 8 (m.rd .GLOBAL_REV_STEP + m.rd .GLOBAL_REV_ROM * 2 ^ 8 + m.rd .GLOBAL_REV_OPTVALID * 2 ^ 24) ++ toBytes 8 (m.rd .GLOBAL_BLOCK_NUM)

def sidebandIdentity (m : Mach) : Mach := if m.resets.cold then m else m.answer msgIdentity m.identityBody

/-- A temperature query converts every zone (R311, R387). -/
def sidebandTemperature (m : Mach) : Mach := if m.resets.cold then m else m.convert (List.range 24) .sideband

/-- A mailbox write: to the recovery core in Twilight, else refused with an empty answer. -/
def mailboxWrite (data : Bytes) (m : Mach) : Mach :=
  if m.resets.cold then m
  else if m.twilight then { m with trust := { m.trust with mailIn := m.trust.mailIn ++ [slice data 0 64] } }
  else m.answer msgMailbox []

/-- A mailbox read: the oldest frame from the recovery core; refused, or nothing to give, with an empty answer. -/
def mailboxRead (m : Mach) : Mach :=
  if m.resets.cold then m
  else match m.twilight, m.trust.mailOut with
    | true, b :: rest => ({ m with trust := { m.trust with mailOut := rest } } : Mach).answer msgMailbox b
    | _, _ => m.answer msgMailbox []

/-! ## The memory device's mailbox and the DOE mailbox (R312); the bodies are other standards' (log entry 9) -/

/-- What the block reports of itself to the memory-device commands. -/
def Mach.deviceReport (m : Mach) : Bytes :=
  m.identityBody ++ toBytes 3 Config.function.classCode ++ toBytes 1 Config.function.hdmCount ++ toBytes 8 (384 * 2 ^ 30) ++ toBytes 2 (m.hottest (List.range 24)) ++ toBytes 1 (m.rd .FAULT_STATUS_HALT) ++ toBytes 1 (m.rd .PWR_STATE_CUR)

def Mach.deviceAnswer (m : Mach) (msg kind : Nat) (req : Bytes) : Mach := m.answer msg (Config.messageBody kind req m.deviceReport)

/-! ## CXL.mem (R313, R314, R370) -/

def hdmSize : Nat := 384 * 2 ^ 30

/-- The host commits the decoder: only 384 GiB, 1-way, is accepted. -/
def hdmCommit (size ways : Nat) (m : Mach) : Mach :=
  if size = hdmSize ∧ ways = 1 then { m.wr .UCIE_STAT_HDMCOMMIT 1 with hdmError := false }
  else { m.wr .UCIE_STAT_HDMCOMMIT 0 with hdmError := true }

/-- An allocation of partition p covers some byte of the granule of a canonical stack address, in either view (R173, R370). -/
def Mach.granuleGranted (m : Mach) (p c : Nat) : Bool :=
  let g := c / 1024 * 1024
  (List.range 256).any (fun a =>
    let base := m.rd .SEC_ALLOC_BASE p a
    let len := m.rd .SEC_ALLOC_LEN p a
    len != 0 && m.inStacks base &&
      (if m.region base = 1 then decide (base < g + 1024) && decide (g < base + len)
       else (List.range 4).any (fun k => decide (base ≤ stripedOf (g + 256 * k)) && decide (stripedOf (g + 256 * k) < base + len))))

/-- The granule belongs to a sealed partition. -/
def Mach.granuleSealed (m : Mach) (c : Nat) : Bool := (List.range 16).any (fun p => m.isSealed p && m.granuleGranted p c)

/-- A CXL.mem access lies in the committed range (R313), which maps to the striped view of the stacks in order. -/
def Mach.decoded (m : Mach) (a n : Nat) : Bool := m.flag .UCIE_STAT_HDMCOMMIT && decide (a + n ≤ hdmSize)

/-- An access outside it: without a commit nothing more happens, with one its address is refused and counted (R54, R313). -/
def Mach.hdmMiss (m : Mach) : Mach := if m.flag .UCIE_STAT_HDMCOMMIT then m.badAcc else m

/-- Poison in answer to a read. -/
def Mach.poisonAnswer (m : Mach) : Mach := (m.inc .UCIE_POISON_COUNT).emit (.cxlData [] true)

/-- A granule at an address belongs to a sealed partition (R370). -/
def Mach.hostBlocked (m : Mach) (a : Nat) : Bool := (m.canon a).any m.granuleSealed

/-- The part of a read that lies in one 256 B granule (R212). -/
def Mach.readPart (m : Mach) (a n : Nat) : Mach := if m.hostBlocked a then m.countDenied.poisonAnswer else m.hostAccess ⟨true, a, n, none, 0, 0, false⟩

/-- The part of a write that lies in one 256 B granule. -/
def Mach.writePart (m : Mach) (a : Nat) (bs : Bytes) : Mach :=
  if m.hostBlocked a then m.countDenied.emit .cxlDone else m.hostAccess ⟨true, a, bs.length, some bs, 0, 0, false⟩

def memRead (a n : Nat) (m : Mach) : Mach :=
  if m.decoded a n then (pieceStarts 256 a n).foldl (fun m s => m.readPart s (min (a + n) (s / 256 * 256 + 256) - s)) m else m.hdmMiss.poisonAnswer

def memWrite (a : Nat) (bs : Bytes) (m : Mach) : Mach :=
  if m.decoded a bs.length then (pieces 256 a bs).foldl (fun m pc => m.writePart pc.1 pc.2) m else m.hdmMiss.emit .cxlDone

/-! ## The far-tier port (R319, R320) -/

/-- Links of the port under the present bifurcation. -/
def Mach.farLinks (m : Mach) : Nat := if m.rd .FARCXL_CTL_BIF = 0 then 1 else if m.rd .FARCXL_CTL_BIF = 1 then 2 else 4

/-- A COPY's slot access has ended with a status: the command ends, and its other accesses with it. The groups before the first slot not written are its prefix (R102). -/
def Mach.farCopyFails (m : Mach) (f : FarOp) (st : Nat) : Mach :=
  match m.issuedOf f.cmdId with
  | some c =>
    if c.result.isNone then m.stopCopy st { c with progress := (m.farOps.filter (fun x => x.cmdId == c.id)).foldl (fun k x => min k x.item) (min c.progress f.item) } else m
  | none => m

/-- A far-tier access ends with a failure. -/
def Mach.farFails (m : Mach) (f : FarOp) (st : Nat) : Mach :=
  let m : Mach := { m with farOps := m.farOps.filter (fun x => x.id != f.id) }
  match f.kind with
  | .restore => m.restoreEnds f none st
  | .spill => m.spillEnds f false st
  | .copyRead => m.farCopyFails f st
  | .copyWrite => m.farCopyFails f st

/-- One slot read of a COPY is done: with the last of them the copy runs. -/
def Mach.farReadStep (m : Mach) (f : FarOp) : Mach :=
  match m.issuedOf f.cmdId with
  | some c =>
    let c := { c with left := c.left - 1 }
    let m := m.setIssued c
    if c.left = 0 then (match m.copyJob c with | some j => m.copyRun c j | none => m.setIssued { c with result := some stDescHandle }) else m
  | none => m

/-- A COPY's write covers its slot whole: it is posted (R34). -/
def FarOp.whole (f : FarOp) : Bool := f.mask == 2 ^ 8192 - 1

/-- One slot of a COPY is written: whole, or merged with what the slot holds and counted in RMW (R322). With the last of them the command ends. -/
def Mach.farWriteStep (m : Mach) (f : FarOp) : Mach :=
  let m := if f.whole then m.farSeal f.part f.slot f.buf
    else
      let old := (m.farOpen f.slot).getD []
      (m.inc .FARCXL_TRAFFIC_RMW).farSeal f.part f.slot ((List.range 8192).map (fun i => if bit f.mask i then nthD f.buf i 0 else nthD old i 0))
  match m.issuedOf f.cmdId with
  | some c => m.setIssued { c with left := c.left - 1, result := if c.left ≤ 1 then some (nthD c.extra 0 stOk) else c.result }
  | none => m

/-- A far-tier access ends well. -/
def Mach.farWorks (m : Mach) (f : FarOp) : Mach :=
  let m : Mach := { m with farOps := m.farOps.filter (fun x => x.id != f.id) }
  match f.kind with
  | .restore => m.restoreEnds f (m.farOpen f.slot) stOk
  | .spill => m.spillEnds f true stOk
  | .copyRead => m.farReadStep f
  | .copyWrite => m.farWriteStep f

/-- The expander that holds a slot. -/
def Mach.farExp (m : Mach) (slot : Nat) : Option Nat :=
  (List.range 4).find? (fun e => decide (m.rd .FARCXL_EXP_BASE e * 2 ^ 30 ≤ slot * 8192) &&
    decide (slot * 8192 < (m.rd .FARCXL_EXP_BASE e + m.rd .FARCXL_EXP_GIB e) * 2 ^ 30))

/-- The record of a failed far-tier access (R323). -/
def Mach.postFar (m : Mach) (f : FarOp) (kind : Nat) : Mach :=
  m.postFor (some f.cmdId) ⟨f.part, 0, farBase + f.slot * 8192, 6, (m.farExp f.slot).getD 255, kind⟩

/-- FARCXL_CTL.ENABLE is written. Firmware must have started to bring the port up (R18). -/
def farPortEnable (v : Nat) (m : Mach) : Mach :=
  if v % 2 = 1 then
    if m.flag .FARCXL_CTL_ENABLE || !m.firmware then m
    else
      let m := ((m.wr .FARCXL_CTL_ENABLE 1).wr .FARCXL_STAT_STATE 1).startDom farDom
      (List.range m.farLinks).foldl (fun m e => (m.wr .FARCXL_EXP_STATE 1 e).emit (.pin (pinFarPerst e) true)) m
  else if !m.flag .FARCXL_CTL_ENABLE then m
  else
    let m := m.farOps.foldl (fun m f => m.farFails f stFarDown) m
    let m := (((m.wr .FARCXL_CTL_ENABLE 0).wr .FARCXL_STAT_STATE 0).wr .FARCXL_STAT_GIB 0).stopDom farDom
    (List.range 4).foldl (fun m e =>
      let m := if e < m.farLinks then m.emit (.pin (pinFarPerst e) false) else m
      ((((m.wr .FARCXL_EXP_STATE 0 e).wr .FARCXL_EXP_WIDTH 0 e).wr .FARCXL_EXP_RATE 0 e).wr .FARCXL_EXP_GIB 0 e).wr .FARCXL_EXP_BASE 0 e) m

/-- The width at which a link of so many lanes runs: 16, 8 or 4 (R319). -/
def linkWidth (lanes : Nat) : Nat := if 16 ≤ lanes then 16 else if 8 ≤ lanes then 8 else 4

/-- One expander of the enumeration: used, at the next place in the far tier; rejected; or absent (R320). -/
def Mach.farExpander (m : Mach) (e : Nat) (x : FarExpander) : Mach :=
  if !x.present then m.wr .FARCXL_EXP_STATE 0 e
  else
    let m := (m.wr .FARCXL_EXP_WIDTH (min (linkWidth x.lanes) (16 / m.farLinks)) e).wr .FARCXL_EXP_RATE (if x.fast then 2 else 1) e
    if !x.accepted then (m.wr .FARCXL_EXP_STATE 3 e).post ⟨0, 0, 0, 6, e, fkFarReject⟩
    else
      let base := m.rd .FARCXL_STAT_GIB
      let gib := min (x.bytes / 2 ^ 30) (4096 - base)
      (((m.wr .FARCXL_EXP_STATE 2 e).wr .FARCXL_EXP_BASE base e).wr .FARCXL_EXP_GIB gib e).wr .FARCXL_STAT_GIB (base + gib)

/-- Enumeration ends. A port that can use no expander has failed. -/
def farPortUp (es : List FarExpander) (m : Mach) : Mach :=
  if m.rd .FARCXL_STAT_STATE = 1 then
    let m := (List.range m.farLinks).foldl (fun m e => m.farExpander e (es.getD e ⟨false, false, false, false, false, 0, false, 0⟩)) m
    if (List.range 4).any (fun e => m.rd .FARCXL_EXP_STATE e == 2) then (m.wr .FARCXL_STAT_STATE 2).setDom farDom ⟨2, false, 0, 0⟩
    else m.wr .FARCXL_STAT_STATE 3
  else m

/-! ## Far-tier accesses (R322, R323) -/

/-- The oldest access to a slot. -/
def Mach.farOldest (m : Mach) (slot : Nat) : Option FarOp := m.farOps.find? (fun f => f.slot == slot)

/-- The access fetches the slot: a restore, a COPY's read, or a COPY's write of part of it (R322). -/
def FarOp.reads (f : FarOp) : Bool := f.kind == .restore || f.kind == .copyRead || (f.kind == .copyWrite && !f.whole)

/-- The expander completes the oldest access to a slot; a slot never written is not read from it. -/
def farComplete (slot : Nat) (poison : Bool) (m : Mach) : Mach :=
  match m.farOldest slot with
  | none => m
  | some f =>
    let fresh := sealVersion (m.sealEntry slot) == 0
    let down := match m.farExp slot with | some e => m.rd .FARCXL_EXP_STATE e != 2 | none => true
    if f.reads && fresh then m.farWorks f
    else if down then m
    else if f.reads && poison then ((m.inc .FARCXL_ERR_POISON).postFar f fkFarPoison).farFails f stUe
    else if f.reads && !m.farReadable f.part slot then ((m.inc .FARCXL_ERR_AUTH).postFar f fkFarAuth).farFails f stFarAuth
    else m.farWorks f

/-- An expander is lost to one access: counted and recorded, its state 4. -/
def Mach.farLoss (m : Mach) (f : FarOp) : Mach :=
  let m := (m.inc .FARCXL_ERR_TIMEOUT).postFar f fkFarDown
  match m.farExp f.slot with
  | some e => m.wr .FARCXL_EXP_STATE 4 e
  | none => m

/-- The oldest access to a slot has had no completion within TIMEOUT. -/
def farTimeout (slot : Nat) (m : Mach) : Mach :=
  match m.farOldest slot with
  | some f => (m.farLoss f).farFails f stFarDown
  | none => m

/-- A link goes down, or its IDE fails: writes whose flits had been sent complete as sent and leave the slot unreadable; every other access of the expander ends. -/
def farLinkDown (e : Nat) (sent : List Nat) (m : Mach) : Mach :=
  if m.rd .FARCXL_EXP_STATE e != 2 then m
  else
    let ops := m.farOps.filter (fun f => m.farExp f.slot == some e)
    let m := if ops.isEmpty then (m.inc .FARCXL_ERR_TIMEOUT).post ⟨0, 0, 0, 6, e, fkFarDown⟩ else m
    let m := ops.foldl (fun m f =>
      if !m.farOps.any (fun x => x.id == f.id) then m
      else
        let m := m.farLoss f
        if sent.contains f.slot && (f.kind == .spill || f.kind == .copyWrite) then
          let m := m.farWorks f
          { m with farLost := nset (fun _ => false) m.farLost f.slot true }
        else m.farFails f stFarDown) m
    m.wr .FARCXL_EXP_STATE 4 e

end Sys2Proof.Machine
end

