-- ==== Sys2Proof/Machine/Registers.lean ====
section
/-! DEFINITION. The control space (R5, R6, R10 to R12): what a read of a register word returns and clears, and what a write of one does to its fields. -/
namespace Sys2Proof.Machine

/-! ## The words -/

def allWords : List WordInfo :=
  wordsGlobal ++ wordsTime ++ wordsSeqr ++ wordsTrace ++ wordsCore ++ wordsSec ++ wordsStack ++ wordsLink ++ wordsUcie ++ wordsFarcxl ++ wordsFault ++
    wordsPwr ++ wordsTherm ++ wordsRst

/-- The indices of the word at an offset, when this table row has one there. -/
def WordInfo.at? (w : WordInfo) (off : Nat) : Option (Nat × Nat) :=
  let d := off - w.base
  let i := if w.s1 = 0 then 0 else d / w.s1
  let r := if w.s1 = 0 then d else d % w.s1
  let j := if w.s2 = 0 then 0 else r / w.s2
  let z := if w.s2 = 0 then r else r % w.s2
  if w.base ≤ off ∧ z = 0 ∧ i < w.n1 ∧ j < w.n2 then some (i, j) else none

/-- The places inside a table row that hold no register: a fourth word of a core group, link slot 0. -/
def isHole (w : WordInfo) (i j : Nat) : Bool :=
  (w.flds.contains .SEC_PART_CG_CORES && j % 4 == 3) || (w.flds.contains .SEC_KEYST_VALID && i == 0)

/-- The register word at an 8-byte aligned offset: its fields and indices. -/
def wordAt (off : Nat) : Option (List Fld × Nat × Nat) :=
  allWords.findSome? (fun w => match w.at? off with
    | some (i, j) => if isHole w i j then none else some (w.flds, i, j)
    | none => none)

/-! ## Values that are computed when read -/

/-- A number with bit k set for each k below n that a test selects. -/
def maskOf (n : Nat) (sel : Nat → Bool) : Nat := (List.range n).foldl (fun s k => if sel k then s + 2 ^ k else s) 0

/-- FAULT_STATUS.GUAR (R352). -/
def Mach.guarded (m : Mach) : Bool :=
  m.flag .FAULT_CFG_LOCKSTEP && m.flag .FAULT_CFG_DIAGEN && decide (m.rd .FAULT_CFG_DIAGPER ≤ 1000) && !m.flag .FAULT_STATUS_HALT &&
    (List.range 16).all (fun p => !m.enabled p || (m.partLogical p).all (fun l =>
      match m.physOf l with | some n => m.flag .CORE_CTL_ABFT n | none => true))

/-- A bank is occupied by an item (R216). -/
def Mach.bankBusy (m : Mach) (n b : Nat) : Bool := (m.bank n b).occupant.isSome

/-- Bytes 0 to 7 or 8 to 15 of an entry of the error log (R335). -/
def LogEntry.bytes (e : LogEntry) : Bytes := toBytes 1 e.typ ++ toBytes 1 e.symbol ++ toBytes 2 e.count ++ toBytes 6 e.loc ++ toBytes 6 e.tick

def Mach.elogBytes (m : Mach) (i : Nat) : Bytes := (nget (fun _ => (⟨0, 0, 0, 0, 0⟩ : LogEntry)) m.elog i).bytes

/-- The owner's public key in the option store; all zero where there is no owner (R362). -/
def NonVol.optBytes (nv : NonVol) (o n : Nat) : Bytes := (List.range n).map (fun i => nget (fun _ => 0) nv.opt (o + i))
def NonVol.ownerKey (nv : NonVol) : Bytes := nv.optBytes 0xF000 32
def NonVol.owned (nv : NonVol) : Bool := (nv.ownerKey).any (· != 0)

/-- The private seed of the identity key (R359). -/
def identitySeed : Bytes := slice (Config.sha512 (("KWN-NX12 identity".toList.map (fun c => BitVec.ofNat 8 c.toNat)) ++ Config.fusedSeed)) 0 32

/-- The item occupies a bank. -/
def ItemPhase.holdsBank : ItemPhase → Bool
  | .onBank _ => true
  | _ => false

/-- A partition reset has steps to go: a switch to end, or items to stop at a yield point (R207, R401). -/
def Mach.partResetBusy (m : Mach) : Bool :=
  !m.resets.parts.isEmpty || m.items.any (fun it => it.failed == some stReset && it.phase.holdsBank && !it.stopped && (m.issuedOf it.cmdId).isNone)

/-- Value of a field as a read returns it. -/
def Mach.fieldValue (m : Mach) (nv : NonVol) (f : Fld) (i j : Nat) : Nat :=
  if f.info.access = .wo then 0
  else match f with
  | .TIME_NOW_NS => m.time.ns
  | .TIME_TICK_TICK => m.tick48
  | .SEQR_QSTAT_EMPTY => b2n (m.rd .SEQR_QHEAD_HEAD i j == m.snapTail i j)
  | .TIME_REFR_HOT => maskOf 12 (fun n => (m.stack n).hot)
  | .CORE_ID_PHYS => i
  | .CORE_ID_ROW => i % 96 / 12
  | .CORE_ID_COL => i % 12
  | .CORE_ID_DIE => i / 96
  | .CORE_MAP_STATE => (m.map i).st
  | .CORE_MAP_LOGICAL => (m.map i).logical
  | .CORE_MAP_PART => (match m.groupOf i with | some x => x.1 | none => 0)
  | .CORE_MAP_GROUP => (match m.groupOf i with | some x => x.2 | none => 0)
  | .CORE_MAP_INGROUP => b2n (m.groupOf i).isSome
  | .CORE_MAP_RETIRE => b2n ((m.map i).st == 3)
  | .CORE_STAT_RUN => b2n (m.core i).run
  | .CORE_STAT_PC => (m.coreD i).pc
  | .CORE_QSTAT_QFULL => maskOf 32 (fun q => ((m.coreD i).queue q).configured && ((m.coreD i).queue q).free == 0)
  | .CORE_QSTAT_QEMPTY => maskOf 32 (fun q => ((m.coreD i).queue q).occ == 0)
  | .CORE_IFILLST_BUSY => b2n (!(m.coreD i).ifill.isEmpty)
  | .CORE_PROG_VALUE => (m.coreD i).prog
  | .STACK_ID_NUM => i
  | .STACK_ID_DIE => i / 6
  | .STACK_SEQ_RUNNING => maskOf 16 (fun p => m.sq.issued.any (fun c => c.part == p && c.queue == 8 + i && c.cmd.opcode == 2 && c.started && c.result.isNone))
  | .STACK_SEQ_INFLIGHT => m.inFlight i
  | .STACK_ACC_HOLDMAX => if nget (fun _ => false) m.accessed i then max (m.rd f i) (Config.freeValue m.fresh % 2 ^ 16) else m.rd f i
  | .LINK_FEC_CORR => if nget (fun _ => false) m.fecHeard i then Config.freeValue m.fresh else 0
  | .UCIE_CREDSTALL_NS => if (List.range 4).any (fun k => decide (2 ≤ m.rd .UCIE_MOD_STATE k)) then Config.freeValue m.fresh else 0
  | .STACK_SEQ_QPWR => maskOf 4 (fun q => m.running (quadDom i q))
  | .STACK_TEMP_HOT => b2n (m.stack i).hot
  | .STACK_TEMP_THROT => b2n (m.stack i).throt
  | .STACK_BUSY_BANKS => maskOf 64 (fun b => m.bankBusy i (64 * j + b))
  | .STACK_QBUSY_QUAD => maskOf 4 (fun q => (List.range 128).any (fun b => m.bankBusy i (128 * q + b)))
  | .LINK_ID_PORT => i
  | .LINK_ID_DIE => i / 8
  | .FAULT_STATUS_GUAR => b2n m.guarded
  | .FAULT_ELOG_LO => field (m.elogBytes i) 0 8
  | .FAULT_ELOG_HI => field (m.elogBytes i) 8 8
  | .SEC_ARB_COUNT => nv.arb
  | .SEC_IDKEY_WORD => field (Config.edPublic identitySeed) (8 * i) 8
  | .SEC_OPTST_OWNED => b2n nv.owned
  | .SEC_LOCK_DOWN => b2n m.lockdown
  | .SEC_TENANT_CTL_RINGKEY => b2n (!(m.key 1 i).isEmpty)
  | .SEC_TENANT_CTL_FARKEY => b2n (!(m.key 2 i).isEmpty)
  | .SEC_TENANT_CTL_IMPKEY => b2n (!(m.key 4 i).isEmpty)
  | .PWR_DOM_CORE => maskOf 64 (fun k => m.running (64 * i + k))
  | .PWR_DOM_QUAD => maskOf 48 (fun k => m.running (192 + k))
  | .PWR_DOM_LINK => maskOf 16 (fun n => m.running (portDom n))
  | .PWR_DOM_FAR => b2n (m.running farDom)
  | .RST_PART_BUSY => b2n m.partResetBusy
  | .RST_UNIT_BUSY => b2n (!m.resets.units.isEmpty)
  | _ => m.rd f i j

/-- The window of a core that is spare or retired shows ID and MAP only (R151). -/
def Mach.coreHidden (m : Mach) (off : Nat) : Bool :=
  decide (0x01000000 ≤ off) && decide (off < 0x01C00000) && !m.coreEnabled ((off - 0x01000000) / 0x10000) && decide (16 ≤ off % 0x10000)

/-- A record of the trace ring as its window shows it: nothing of a sealed partition's MARK payload to the host (R113, R369). -/
def Mach.traceWindow (m : Mach) (who : Requester) (i : Nat) : Bytes :=
  if i < 2 ^ m.rd .TRACE_SIZE_LOG2 then
    let r := m.read false (m.rd .TRACE_BASE_ADDR + i * 32) 32
    if who = .host ∧ field r 0 1 = 3 ∧ m.isSealed (field r 1 1 % 16) then slice r 0 16 ++ List.replicate 16 0 else r
  else List.replicate 32 0

/-- An entry of the session table as its window shows it (R260, R369). -/
def Mach.seqtabWindow (m : Mach) (who : Requester) (i : Nat) : Bytes :=
  let e := m.sess i
  if who = .host ∧ e.state ≠ 0 ∧ m.isSealed e.part then List.replicate 64 0 else sessionBytes e

/-- The 64 bits at an 8-byte aligned offset. -/
def Mach.readWord (m : Mach) (nv : NonVol) (who : Requester) (off : Nat) : Nat :=
  if 0x20 ≤ off ∧ off < 0x00100000 then field m.trust.optImage (off - 0x20) 8
  else if 0x00400000 ≤ off ∧ off < 0x00800000 then field (m.seqtabWindow who ((off - 0x00400000) / 64)) (off % 64) 8
  else if 0x04100000 ≤ off then field (m.traceWindow who ((off - 0x04100000) / 32)) (off % 32) 8
  else match wordAt off with
    | some (fs, i, j) => if m.coreHidden off then 0 else fs.foldl (fun s f => s + trunc f.width (m.fieldValue nv f i j) * 2 ^ f.info.lo) 0
    | none => 0

/-- An access of R11: 32 or 64 bits, naturally aligned, inside the 256 MiB of the control space. -/
def accessOk (off width : Nat) : Bool := (width == 32 || width == 64) && off % (width / 8) == 0 && decide (off < 0x10000000)

/-- An access that R11 refuses. -/
def Mach.badRequest (m : Mach) (off : Nat) : Mach := (m.emit (.unsupported off)).badAcc

/-- The field has a bit among bits [lo, lo + n) of its word. -/
def Fld.meets (f : Fld) (lo n : Nat) : Bool := decide (f.info.lo < lo + n) && decide (lo ≤ f.info.hi)

/-- The high half of TIME_NOW that a requester's low-half read left (R29). -/
def TimeBase.latch (t : TimeBase) : Requester → Option Nat
  | .host => t.latchHost
  | .fw => t.latchFw

def TimeBase.setLatch (t : TimeBase) (who : Requester) (v : Option Nat) : TimeBase :=
  match who with
  | .host => { t with latchHost := v }
  | .fw => { t with latchFw := v }

/-- A 32-bit read of the low half of TIME_NOW (R29). -/
def timeLowRead (who : Requester) (m : Mach) : Mach :=
  ({ m with time := m.time.setLatch who (some (m.time.ns / 2 ^ 32 % 2 ^ 32)) } : Mach).emit (.regRead 0x00100000 32 (m.time.ns % 2 ^ 32))

/-- A 32-bit read of the high half: what the requester's low-half read latched, else the current value. -/
def timeHighRead (who : Requester) (m : Mach) : Mach :=
  let v := (m.time.latch who).getD (m.time.ns / 2 ^ 32 % 2 ^ 32)
  ({ m with time := m.time.setLatch who none } : Mach).emit (.regRead 0x00100004 32 v)

/-- A read of THERM_NOW[z] converts the zone; the answer comes with the conversion's end (R387). -/
def thermNow (who : Requester) (z : Nat) (m : Mach) : Mach := m.convert [z] (.now z who)

/-- An RC field that a read touched clears. The corrected codewords of a port are counted outside the model, and so are the waits of a die-class access and for the host's credits: what a read returns of
them is a free value (log entries 40, 82 and 125). -/
def Mach.clearRead (m : Mach) (f : Fld) (i j : Nat) : Mach :=
  if f = .LINK_FEC_CORR then { m with fecHeard := nset (fun _ => false) m.fecHeard i false, fresh := m.fresh + 1 }
  else if f = .STACK_ACC_HOLDMAX then { m.wr f 0 i j with accessed := nset (fun _ => false) m.accessed i false, fresh := m.fresh + 1 }
  else if f = .UCIE_CREDSTALL_NS then { m with fresh := m.fresh + 1 }
  else m.wr f 0 i j

/-- A read of the control space: the value goes out, and RC fields it touches clear. -/
def regRead (nv : NonVol) (who : Requester) (off width : Nat) (m : Mach) : Mach :=
  if !accessOk off width then m.badRequest off
  else if off = 0x00100000 ∧ width = 32 then timeLowRead who m
  else if off = 0x00100004 then timeHighRead who m
  else if 0x00A00100 ≤ off ∧ off < 0x00A001C0 then thermNow who ((off - 0x00A00100) / 8) m
  else
    let base := off / 8 * 8
    let lo := 8 * (off % 8)
    let v := m.readWord nv who base / 2 ^ lo % 2 ^ width
    let m := m.emit (.regRead off width v)
    match wordAt base with
    | some (fs, i, j) =>
      if m.coreHidden base then m
      else (fs.filter (fun f => f.info.access = .rc && f.meets lo width)).foldl (fun m f => m.clearRead f i j) m
    | none => m

/-! ## Writes -/

/-- Fields whose writes are commands of their own: a plain register write leaves them. -/
def ownRow (f : Fld) : Bool :=
  [.GLOBAL_BLOCK_LOCK, .TIME_CTL_ROLE, .SEQR_QCTL_ENABLE, .SEC_ALLOC_BASE, .SEC_ALLOC_READ, .SEC_ALLOC_WRITE, .SEC_ALLOC_LEN, .SEC_PART_CTL_ENABLE,
   .FARCXL_CTL_ENABLE, .FAULT_STOP_STOPPED, .SEC_BOOT_STARTED, .SEC_TENANT_CTL_SEALED, .RST_MODE_TEST, .FAULT_INJ_ARM, .CORE_MAP_RETIRE].contains f

/-- The lock of an RWL field is set. -/
def Mach.locked (m : Mach) (f : Fld) (i j : Nat) : Bool :=
  match f with
  | .GLOBAL_BLOCK_NUM => m.flag .GLOBAL_BLOCK_LOCK
  | .SEQR_QBASE_ADDR | .SEQR_QSIZE_LOG2 | .SEQR_QHEAD_HEAD | .SEQR_CRBASE_ADDR => m.flag .SEQR_QCTL_ENABLE i j
  | .TRACE_BASE_ADDR | .TRACE_SIZE_LOG2 => m.flag .TRACE_CTL_EN
  | .SEC_POOL_CFG_LOG2 | .SEC_POOL_RING_ADDR => m.flag .SEC_POOL_CFG_ENABLE i j
  | .SEC_PART_RANGE_FIRST | .SEC_PART_RANGE_COUNT | .SEC_PART_SAVE_BASE | .SEC_PART_CG_CORES => m.flag .SEC_PART_CTL_ENABLE i
  | .LINK_PAIR_PORT | .LINK_PAIR_STAGE => m.flag .LINK_PAIR_ENABLE
  | .FARCXL_CTL_BIF | .FARCXL_SEALTAB_BASE | .FARCXL_SEALTAB_SLOTS => m.flag .FARCXL_CTL_ENABLE
  | .FAULT_CFG_LOCKSTEP | .FAULT_CFG_DIAGEN | .FAULT_CFG_DIAGPER => m.flag .FAULT_CFG_LOCK
  | .FAULT_WREG_BASE | .FAULT_WREG_LEN | .FAULT_WREG_PLANES | .FAULT_WREG_ARR | .FAULT_WREG_PSTRIDE | .FAULT_WREG_MIRROR => m.flag .FAULT_WREG_VALID i
  | .SEC_BOOT_ADDR | .SEC_BOOT_LEN => m.firmware
  | .SEC_TENANT_TKEY => m.isSealed i
  | .PWR_MNSAVE_BASE => m.flag .PWR_STATE_MOVING
  | _ => false

/-- LINK[n].CTL.ENABLE takes a value: 0 darkens the port, 1 trains it (R308). -/
def Mach.linkEnable (m : Mach) (n v : Nat) : Mach :=
  if m.rd .LINK_CTL_ENABLE n = v % 2 then m
  else if v % 2 = 0 then
    let m := ((m.dropQueue n).wr .LINK_CTL_ENABLE 0 n).wr .LINK_STATE_STATE 4 n
    if m.plugged n then m.emit (.pin (pinLaser n) false) else m
  else
    let m := (m.wr .LINK_CTL_ENABLE 1 n).wr .LINK_STATE_STATE 1 n
    if m.plugged n then m.emit (.pin (pinLaser n) true) else m

/-- A range that FAULT_WREG may register: whole 4 KiB pages of one stack, in one view; a mirror in another stack, or none; not one plane (R332; log entry 109). -/
def Mach.wregOk (m : Mach) (k : Nat) : Bool :=
  let base := m.rd .FAULT_WREG_BASE k
  let len := m.rd .FAULT_WREG_LEN k
  let mir := m.rd .FAULT_WREG_MIRROR k
  base % 4096 == 0 && len % 4096 == 0 && len != 0 && m.inStacks base && m.rangeOk base len && stackOf (base + len - 1) == stackOf base &&
    (mir == 0 || (m.inStacks mir && stackOf mir != stackOf base)) && m.rd .FAULT_WREG_PLANES k != 1

/-- TRACE_CTL.EN takes a value: a new tracing counts its records from 0; at its end what is staged is written (R112, R113; log entry 123). -/
def Mach.traceEnable (m : Mach) (v : Nat) : Mach :=
  if m.rd .TRACE_CTL_EN = v then m
  else if v = 1 then (m.wr .TRACE_CTL_EN 1).wr .TRACE_WP_INDEX 0
  else (drainTrace 4096 true m).wr .TRACE_CTL_EN 0

/-- The value a read-write field takes. -/
def Mach.setField (m : Mach) (f : Fld) (v i j : Nat) : Mach :=
  match f with
  | .SEQR_QTBASE_TICK => { m with sq := { m.sq with tbasePend := m.sq.tbasePend ++ [(i, j, v)] } }
  | .SEQR_PARAM_VALUE => { m with sq := { m.sq with paramPend := m.sq.paramPend ++ [(i, j, v)] } }
  | .FAULT_WREG_VALID => if v = 1 ∧ !m.flag f i ∧ !m.wregOk i then m.badAcc else m.wr f v i
  | .FARCXL_CTL_BIF => if v = 3 then m.badAcc else m.wr f v
  | .LINK_CTL_ENABLE => m.linkEnable i v
  | .TRACE_CTL_EN => m.traceEnable v
  | .LINK_PAIR_ENABLE => if m.rd f = v then m else m.pairEnable (v == 1)
  | _ => m.wr f v i j

/-- The value that a write to part of a field builds on: the last one that waits for the boundary, else the stored one. -/
def Mach.writeBase (m : Mach) (f : Fld) (i j : Nat) : Nat :=
  match f with
  | .SEQR_QTBASE_TICK => (match m.sq.tbasePend.reverse.find? (fun e => e.1 == i && e.2.1 == j) with | some e => e.2.2 | none => m.rd f i j)
  | .SEQR_PARAM_VALUE => (match m.sq.paramPend.reverse.find? (fun e => e.1 == i && e.2.1 == j) with | some e => e.2.2 | none => m.rd f i j)
  | _ => m.rd f i j

/-- A write of bits [lo, lo + n) of a word, as one of its fields takes it; `m0` is the state the locks are judged in. -/
def Mach.writeField (m m0 : Mach) (i j lo n v : Nat) (f : Fld) : Mach :=
  if !f.meets lo n || ownRow f then m
  else
    let a := max f.info.lo lo
    let b := min (f.info.hi + 1) (lo + n)
    let piece := (v / 2 ^ (a - lo) % 2 ^ (b - a)) * 2 ^ (a - f.info.lo)
    let old := m.writeBase f i j
    let kept := old - (old / 2 ^ (a - f.info.lo) % 2 ^ (b - a)) * 2 ^ (a - f.info.lo)
    match f.info.access with
    | .rw => m.setField f (kept + piece) i j
    | .rwl => if m0.locked f i j then m else m.setField f (kept + piece) i j
    | .w1c => m.wr f (old &&& ((2 ^ f.width - 1) ^^^ piece)) i j
    | .w1s => m.wr f (old ||| piece) i j
    | _ => m

/-- Offsets that hold read-only contents outside the tables, where a write is discarded: the option image copy and the trace window. In the session table's window it also counts
in GLOBAL_BADACC (R262). -/
def readOnlyWindow (off : Nat) : Bool := (decide (0x20 ≤ off) && decide (off < 0x00100000)) || decide (0x04100000 ≤ off)

/-- A write of the control space. -/
def regWrite (off width v : Nat) (m : Mach) : Mach :=
  if !accessOk off width then m.badRequest off
  else
    let base := off / 8 * 8
    match wordAt base with
    | some (fs, i, j) => if m.coreHidden base then m.badAcc else fs.foldl (fun x f => x.writeField m i j (8 * (off % 8)) width v f) m
    | none => if readOnlyWindow base then m else m.badAcc

/-! ## Queue control and events (R89, R104, R108) -/

/-- A ring setting that a queue may be enabled with. -/
def Mach.ringOk (m : Mach) (p q : Nat) : Bool :=
  decide (6 ≤ m.rd .SEQR_QSIZE_LOG2 p q) && decide (m.rd .SEQR_QSIZE_LOG2 p q ≤ 16) &&
    m.rd .SEQR_QBASE_ADDR p q % 64 == 0 && m.region (m.rd .SEQR_QBASE_ADDR p q) == 0 && m.rangeOk (m.rd .SEQR_QBASE_ADDR p q) (m.ringSize p q * 64) &&
    m.rd .SEQR_CRBASE_ADDR p q % 32 == 0 && (m.inStacks (m.rd .SEQR_CRBASE_ADDR p q) || m.region (m.rd .SEQR_CRBASE_ADDR p q) == 4) &&
    m.rangeOk (m.rd .SEQR_CRBASE_ADDR p q) (m.ringSize p q * 32)

/-- A write of QCTL[q].ENABLE. -/
def queueEnable (p q v : Nat) (m : Mach) : Mach :=
  if v % 2 = 0 then m.wr .SEQR_QCTL_ENABLE 0 p q
  else if m.flag .SEQR_QCTL_ENABLE p q then m
  else if m.ringOk p q then m.wr .SEQR_QCTL_ENABLE 1 p q else m.badAcc

/-- QCTL[q].RESUME: HALTED clears at the next boundary. -/
def queueResume (p q : Nat) (m : Mach) : Mach := { m with sq := { m.sq with resumePend := m.sq.resumePend ++ [(p, q)] } }

/-- EVRAISE: the event counts at the next boundary. -/
def raiseWrite (p e : Nat) (m : Mach) : Mach := { m with sq := { m.sq with evPend := m.sq.evPend ++ [(p, e)] } }

/-- GLOBAL_BLOCK.LOCK. -/
def blockLock (m : Mach) : Mach := m.wr .GLOBAL_BLOCK_LOCK 1

end Sys2Proof.Machine
end

