-- ==== Sys2Proof/Machine/Trust.lean ====
section
/-! DEFINITION. The security engine (file 14): firmware verification, the anti-rollback count, the option store and its loader, SPDM and KEYAGREE, weight measurements,
sealed partitions with their forgets, imports, and the allocation table (R173, R370). -/
namespace Sys2Proof.Machine

/-- A record of the security engine, in partition 0's stream. -/
def Mach.postSec (m : Mach) (kind : Nat) : Mach := m.post ⟨0, 0, 0, 8, 0, kind⟩

/-! ## Ranges of local addresses and the granules they touch (R221, R368, R370; log entry 25) -/

/-- A granule, numbered across all stacks, holds a byte of [x, x + n), in the view that x names. -/
def granuleIn (x n g : Nat) : Bool :=
  let c := bankBase + g * 1024
  if bit x 46 then decide (x < c + 1024) && decide (c < x + n)
  else (List.range 4).any (fun k => decide (x ≤ stripedOf (c + 256 * k)) && decide (stripedOf (c + 256 * k) < x + n))

/-- The caches lose their lines of the granules that a test selects, without write-back. -/
def Mach.dropWhere (m : Mach) (sel : Nat → Bool) : Mach :=
  { m with cache := m.cache.filter (fun e => !(isStackC (e.1 * 32) && sel (cGranule (e.1 * 32)))) }

/-- The map bits of the granules that a test selects are cleared: they read zero, and their codewords are clean. -/
def Mach.clearWhere (m : Mach) (sel : Nat → Bool) : Mach :=
  let gone (n : Nat) : Nat := (m.written.filter (fun e => e.1 / 2 ^ 25 == n && sel e.1)).length
  let m' : Mach := { m with
    written := m.written.filter (fun e => !sel e.1)
    mem := m.mem.filter (fun e => !(isStackC e.1 && sel (cGranule e.1)))
    wrong := m.wrong.filter (fun e => !(isStackC (e.1 * 16) && sel (cGranule (e.1 * 16))))
    wmWrong := m.wmWrong.filter (fun e => !(List.range 128).all (fun k => sel (e.1 * 128 + k))) }
  (List.range 12).foldl (fun x n => x.wr .STACK_WMSTAT_WRITTEN (m.rd .STACK_WMSTAT_WRITTEN n - gone n) n) m'

/-- A range in the stacks is forgotten at once. -/
def Mach.forgetRange (m : Mach) (x n : Nat) : Mach := if m.inStacks x then (m.dropWhere (granuleIn x n)).clearWhere (granuleIn x n) else m

/-! ## Firmware (R356 to R358, R404, R405) -/

/-- Verification runs: the ROM holds a copy. -/
def Mach.verifying (m : Mach) : Bool := m.rd .SEC_BOOT_STATE == 1 || (m.twilight && !m.trust.image.isEmpty)

/-- SEC_BOOT.GO with LEN: the ROM copies the image. In Twilight the image is the first LEN bytes of what came through the sideband mailbox; one with no byte fails at once. A copy with an unreadable
unit holds nothing that can pass. -/
def firmwareGo (len : Nat) (m : Mach) : Mach :=
  if m.verifying || m.firmware then m
  else if m.twilight then
    let m := m.wr .SEC_BOOT_LEN len
    let img := m.trust.mailIn.flatten.take (m.rd .SEC_BOOT_LEN)
    let m : Mach := { m with trust := { m.trust with image := img, mailIn := [] } }
    if img.isEmpty then (m.wr .SEC_BOOT_STATUS stAuthFail).postSec fkFwSig else m
  else
    let m := m.wr .SEC_BOOT_LEN len
    let a := m.rd .SEC_BOOT_ADDR
    let n := m.rd .SEC_BOOT_LEN
    let img := if m.readUe false a n then [] else m.read false a n
    let m := m.noteRead false a n
    { m.wr .SEC_BOOT_STATE 1 with trust := { m.trust with image := img } }

/-- The checks of R356 in the order of its table: status and fault kind of the first that fails. -/
def imageFails (recovery : Bool) (arb : Nat) (b : Bytes) : Option (Nat × Nat) :=
  let sig := some (stAuthFail, fkFwSig)
  let body := b.drop 128
  if b.length < 128 ∨ field b 0 4 ≠ 0x4B574657 then sig
  else if field b 4 1 ≠ (if recovery then 2 else 1) then sig
  else if field b 5 1 < arb then some (stRollback, fkFwRollback)
  else if field b 6 2 ≠ 0 then sig
  else if (if recovery then 2 ^ 20 else 2 ^ 22) < field b 8 8 ∨ field b 8 8 ≠ b.length - 128 then sig
  else if slice (Config.sha512 (slice b 16 32)) 0 32 ≠ Config.vendorKeyHash then sig
  else if !Config.edVerify (slice b 16 32) (slice b 0 48 ++ Config.sha512 body) (slice b 48 64) then sig
  else if field b 112 16 ≠ 0 then sig
  else none

/-- Verification ends. In Twilight SEC_BOOT.STATE goes on showing the mode (R405). -/
def firmwareVerified (arb : Nat) (m : Mach) : Mach :=
  if !m.verifying then m
  else
    let b := m.trust.image
    let tw := m.twilight
    let m : Mach := { m with trust := { m.trust with image := [] } }
    match imageFails tw arb b with
    | some e => ((if tw then m else m.wr .SEC_BOOT_STATE 3).wr .SEC_BOOT_STATUS e.1).postSec e.2
    | none =>
      let m := ((if tw then m else m.wr .SEC_BOOT_STATE 2).wr .SEC_BOOT_STATUS stOk).wr .SEC_BOOT_SVN (field b 5 1)
      { m with trust := { m.trust with firmware := b } }

/-- Firmware declares itself started. -/
def firmwareStarted (m : Mach) : Mach :=
  if m.flag .SEC_BOOT_STARTED then m
  else
    let m := m.wr .SEC_BOOT_STARTED 1
    if m.twilight then { m with resets := { m.resets with recovered := true } }
    else (m.wr .RST_START_FAILS 0).wr .RST_START_LASTMS (((m.time.ns : Int) - m.trust.releaseNs) / 1000000).toNat

/-- SEC_ARB.ADVANCE: bits are blown up to the lower of the target and the running SVN, never unblown (R357). -/
def NonVol.advance (nv : NonVol) (target svn : Nat) : NonVol :=
  { nv with arb := if nv.arb < min target svn then min 128 (min target svn) else nv.arb }

/-! ## The option store (R360 to R362, R390) -/

/-- Offset, length and source of a write that the store can take (log entry 26): multiples of 16, inside the 64 KiB, from the stacks. -/
def Mach.optWriteOk (m : Mach) (offset len : Nat) : Bool :=
  offset % 16 == 0 && len % 16 == 0 && decide (offset + len ≤ 65536) && (len == 0 || (m.inStacks (m.rd .SEC_OPT_SRC) && m.rangeOk (m.rd .SEC_OPT_SRC) len))

/-- SEC_OPT.GO: the data is taken, and zone 0 is converted before anything is written. -/
def optionGo (offset len : Nat) (m : Mach) : Mach :=
  let m := (m.wr .SEC_OPT_OFFSET offset).wr .SEC_OPT_LEN len
  let o := m.rd .SEC_OPT_OFFSET
  let n := m.rd .SEC_OPT_LEN
  if m.flag .SEC_OPTST_BUSY || !m.optWriteOk o n then m.badAcc
  else if m.readUe false (m.rd .SEC_OPT_SRC) n then ((m.noteRead false (m.rd .SEC_OPT_SRC) n).wr .SEC_OPTST_STATUS stUe).postSec fkOptWrite
  else
    let data := m.read false (m.rd .SEC_OPT_SRC) n
    ({ (m.noteRead false (m.rd .SEC_OPT_SRC) n).wr .SEC_OPTST_BUSY 1 with trust := { m.trust with optWrite := some ⟨o, data⟩ } } : Mach).convert [0] .option

/-- The store with bytes put at an offset. -/
def NonVol.putOpt (nv : NonVol) (o : Nat) (bs : Bytes) : NonVol :=
  { nv with opt := (List.range bs.length).foldl (fun l i => nset (fun _ => 0) l (o + i) (nthD bs i 0)) nv.opt }

/-- A new owner record is acceptable: the first one, or one signed by the owner over the new key and the identity key (R362). -/
def NonVol.ownerOk (old new : NonVol) : Bool :=
  !old.owned || Config.edVerify old.ownerKey (new.ownerKey ++ Config.edPublic identitySeed) (new.optBytes 0xF020 64)

/-- The store that a write leaves, and whether its owner record was acceptable. -/
def NonVol.afterWrite (nv : NonVol) (w : OptWrite) : NonVol × Bool :=
  let new := nv.putOpt w.offset w.data
  if w.offset < 0xF080 ∧ 0xF000 < w.offset + w.data.length ∧ !NonVol.ownerOk nv new then (nv, false) else (new, true)

/-- The conversion for an option-store write still runs. -/
def Mach.optConverting (m : Mach) : Bool := m.power.convs.any (fun k => k.owner == .option)

/-- An option-store write ends. -/
def optionDone (nv : NonVol) (m : Mach) : NonVol × Mach :=
  match m.trust.optWrite with
  | none => (nv, m)
  | some w =>
    if m.optConverting then (nv, m)
    else
      let r := nv.afterWrite w
      let m : Mach := { m.wr .SEC_OPTST_BUSY 0 with trust := { m.trust with optWrite := none } }
      (r.1, if r.2 then m.wr .SEC_OPTST_STATUS stOk else (m.wr .SEC_OPTST_STATUS stAuthFail).postSec fkOwner)

/-! ## The option loader (R148, R339, R361, R403) -/

/-- State of a physical core in the store's maps (log entry 24): 0 enabled, 1 spare, 2 retired. -/
def NonVol.coreState (nv : NonVol) (n : Nat) : Nat := Config.coreEntry (nv.optBytes 0xC400 128) n % 3

/-- The core map of the store: on each die the enabled cores serve the logical numbers in ascending order. -/
def NonVol.coreMap (nv : NonVol) (n : Nat) : CoreMap :=
  if (nv.optBytes 0xC400 128).all (· == 0) then CoreMap.initial n
  else
    let rank := ((List.range (n % 96)).filter (fun k => nv.coreState (n / 96 * 96 + k) == 0)).length
    if nv.coreState n = 0 ∧ rank < 88 then ⟨0, n / 96 * 88 + rank⟩ else if nv.coreState n = 2 then ⟨2, 0xFF⟩ else ⟨1, 0xFF⟩

/-- A row of the store's map is on a spare. -/
def Mach.mapRow (m : Mach) (v : Nat) : Mach :=
  let n := v / 2 ^ 24 % 12
  let b := v / 2 ^ 15 % 512
  let key := b * 32768 + v % 32768
  let s := m.stack n
  if v / 2 ^ 24 ≥ 12 ∨ s.remapped.contains key ∨ 32 ≤ m.sparesUsed n b then m
  else m.setStack n { s with sparesUsed := nset (fun _ => 0) s.sparesUsed b (m.sparesUsed n b + 1), remapped := key :: s.remapped }

/-- The spare and retirement maps of the store take effect. -/
def Mach.applyMaps (m : Mach) (nv : NonVol) : Mach :=
  let rows := ((List.range 4096).map (fun i => ofBytes (nv.optBytes (0x8000 + 4 * i) 4))).filter (· != 0)
  let banks := ((List.range 512).map (fun i => ofBytes (nv.optBytes (0xC000 + 2 * i) 2))).filter (· != 0)
  let maps := nv.optBytes 0xC400 128
  let m := rows.foldl (fun m v => m.mapRow (Config.rowEntry v)) m
  let m := banks.foldl (fun m v =>
    let k := Config.bankEntry v
    if k / 512 < 12 then m.setB .STACK_OFFLINE_BANKS (k % 64) (k / 512) (k % 512 / 64) else m) m
  let m := if maps.all (· == 0) then m
    else (List.range 12).foldl (fun m n =>
      if Config.stackEntry maps n then (List.range 8).foldl (fun m w => m.wr .STACK_OFFLINE_BANKS (2 ^ 64 - 1) n w) (m.wr .STACK_ID_STATE 2 n) else m) m
  if m.coreMap.isEmpty then (List.range 192).foldl (fun m n => m.setMap n (nv.coreMap n)) m else m

/-- One settings record: applied when it names a register of R361. -/
def Mach.applySetting (m : Mach) (off v : Nat) : Mach :=
  if off = 0x10 then
    let m := if m.flag .GLOBAL_BLOCK_LOCK then m else m.wr .GLOBAL_BLOCK_NUM v
    if bit v 31 then m.wr .GLOBAL_BLOCK_LOCK 1 else m
  else if off = 0x00100018 then roleWrite (bits v 2 1) m
  else if off = 0x00800000 then regWrite off 64 v m
  else if 0x01000000 ≤ off ∧ off < 0x01C00000 ∧ (off % 0x10000 = 0x10 ∨ off % 0x10000 = 0x18) then (if m.coreHidden off then m else regWrite off 64 v m)
  else if 0x02000000 ≤ off ∧ off < 0x02C00000 ∧ off % 0x100000 = 0x10 then regWrite off 64 v m
  else if 0x03000000 ≤ off ∧ off < 0x03100000 ∧ off % 0x10000 = 0x10 then m.linkEnable ((off - 0x03000000) / 0x10000) (v % 2)
  else m

/-- The option image: its last 64 bytes are the owner's signature over the rest (log entry 24). -/
def NonVol.imageValid (nv : NonVol) : Bool := nv.owned && Config.edVerify nv.ownerKey (nv.optBytes 0 0x5FC0) (nv.optBytes 0x5FC0 64)

/-- The option loader runs, at a start, before the host port is up and before any firmware. -/
def optionLoad (nv : NonVol) (m : Mach) : Mach :=
  if m.hostUp || m.firmware then m
  else
    let m := m.applyMaps nv
    let ok := nv.imageValid
    let m : Mach := { m.wr .GLOBAL_REV_OPTVALID (b2n ok) with trust := { m.trust with optImage := if ok then nv.optBytes 0 0x6000 else [] } }
    if ok then
      (List.range (0x5FC0 / 16)).foldl (fun m i => m.applySetting (ofBytes (nv.optBytes (16 * i) 8)) (ofBytes (nv.optBytes (16 * i + 8) 8))) m
    else if nv.owned then m.postSec fkOptSig else m

/-! ## SPDM (R363, R364); message layouts are DMTF's (log entry 9) -/

def Transport.key : Transport → Nat
  | .doe => 0
  | .sideband => 1
  | .link n => 2 + n

def Mach.spdm (m : Mach) (t : Transport) : Spdm := nget (fun _ => Spdm.fresh) m.trust.spdm (Transport.key t)
def Mach.setSpdm (m : Mach) (t : Transport) (s : Spdm) : Mach :=
  { m with trust := { m.trust with spdm := nset (fun _ => Spdm.fresh) m.trust.spdm (Transport.key t) s } }

/-- Frames of the SPDM message that has arrived whole on a link port. -/
def Mach.spdmFrames (m : Mach) (n : Nat) : List Frame := look (fun _ => []) n m.trust.spdmIn

/-- The message that came in over a link is this request, filled to whole 32-byte units. -/
def Mach.spdmArrived (m : Mach) (n : Nat) (req : Bytes) : Bool :=
  let fs := m.spdmFrames n
  fs.getLast?.any (·.last) && (fs.map (·.data)).flatten == slice req 0 (ceilDiv req.length 32 * 32)

/-- A request can be taken on its transport: the mailbox of a host port that is up, the sideband in Twilight, a message that a link brought to a block with firmware. -/
def Mach.spdmReady (m : Mach) (t : Transport) (req : Bytes) : Bool :=
  match t with
  | .doe => m.hostUp
  | .sideband => m.twilight
  | .link n => m.firmware && m.spdmArrived n req

/-- The frames of a reply over a link: they retrace the route, LAST set on the final one (R290, R363). -/
def spdmReply (f : Frame) (body : Bytes) : Nat → Nat → Mach → Mach
  | 0, _, m => m
  | k + 1, i, m =>
    let n := min 2048 (ceilDiv body.length 32 * 32 - i)
    let g : Frame := { f with env := 0, srcPart := f.dstPart, dstBlock := f.srcBlock, dstPart := f.srcPart, last := k == 0, bad := false,
                              route := replyRoute f, len := n / 32, status := 0, data := slice (body.drop i) 0 n }
    spdmReply f body k (i + 2048) (m.sendRouted g none)

/-- 64-byte frames of the sideband mailbox. -/
def mailFrames (body : Bytes) : List Bytes := (List.range (ceilDiv body.length 64)).map (fun i => slice body (64 * i) 64)

/-- A response goes back the way its request came. -/
def Mach.spdmAnswer (m : Mach) (t : Transport) (body : Bytes) : Mach :=
  match t with
  | .doe => m.answer msgSpdm body
  | .sideband => { m with trust := { m.trust with mailOut := m.trust.mailOut ++ mailFrames body } }
  | .link n =>
    let fs := m.spdmFrames n
    let m : Mach := { m with trust := { m.trust with spdmIn := m.trust.spdmIn.filter (fun e => e.1 != n) } }
    match fs with
    | f :: _ => spdmReply f body (ceilDiv body.length 2048) 0 m
    | [] => m

/-- The definition of partition p (R364): SEC_PART, its allocations, SEALED and its tenant key hash. -/
def Mach.partDefinition (m : Mach) (p : Nat) : Bytes :=
  toBytes 1 (m.rd .SEC_PART_CTL_ENABLE p) ++ toBytes 1 (m.rd .SEC_PART_CTL_RESIDENT p) ++ toBytes 2 (m.rd .SEC_PART_CWAYS_MASK p) ++
    toBytes 2 (m.rd .SEC_PART_RANGE_FIRST p) ++ toBytes 4 (m.rd .SEC_PART_RANGE_COUNT p) ++ toBytes 6 (m.rd .SEC_PART_SAVE_BASE p) ++
    ((List.range 16).map (fun j => toBytes 8 (m.rd .SEC_PART_CG_CORES p j))).flatten ++
    ((List.range 256).map (fun a => toBytes 6 (m.rd .SEC_ALLOC_BASE p a) ++ toBytes 1 (m.rd .SEC_ALLOC_READ p a) ++ toBytes 1 (m.rd .SEC_ALLOC_WRITE p a) ++
      toBytes 6 (m.rd .SEC_ALLOC_LEN p a))).flatten ++
    toBytes 1 (m.rd .SEC_TENANT_CTL_SEALED p) ++ ((List.range 8).map (fun k => toBytes 8 (m.rd .SEC_TENANT_TKEY p k))).flatten

/-- The measurement blocks (R364): index and digest. -/
def Mach.measurements (m : Mach) (nv : NonVol) : List (Nat × Bytes) :=
  [(1, Config.sha512 Config.bootRom),
   (2, Config.sha512 m.trust.firmware),
   (3, Config.sha512 ((if m.flag .GLOBAL_REV_OPTVALID then m.trust.optImage else List.replicate 0x6000 0) ++ nv.ownerKey)),
   (4, Config.sha512 (toBytes 1 nv.arb ++ nv.optBytes 0x8000 0x4480))] ++
  (List.range 16).map (fun p => (0x10 + p, nget (fun _ => []) m.trust.wmeas p)) ++
  (List.range 16).map (fun p => (0x30 + p, Config.sha512 (m.partDefinition p)))

def Mach.measurementBytes (m : Mach) (nv : NonVol) : Bytes := ((m.measurements nv).map (fun x => toBytes 1 x.1 ++ x.2)).flatten

/-- The connection as an answer depends on it: what was agreed, the session, the transcript. -/
def Spdm.bytes (s : Spdm) : Bytes := toBytes 1 s.version ++ toBytes 1 (b2n s.caps) ++ toBytes 1 (b2n s.algs) ++ toBytes 1 s.session ++ s.transcript

/-- What the block puts into the answer of each request, in the order of R363: 0 GET_VERSION … 10 VENDOR_DEFINED_REQUEST. -/
def Mach.spdmReport (m : Mach) (nv : NonVol) (t : Transport) (k : Nat) (req : Bytes) : Bytes :=
  (m.spdm t).bytes ++ match k with
  | 3 => Config.sha512 (nv.optBytes 0x6000 0x2000)
  | 4 => nv.optBytes 0x6000 0x2000
  | 5 => Config.edSign identitySeed ((m.spdm t).transcript ++ req)
  | 6 => m.measurementBytes nv
  | _ => []

/-- The connection after a request and its answer. -/
def Spdm.after (s : Spdm) (k : Nat) (req body : Bytes) : Spdm :=
  let s := { s with transcript := s.transcript ++ req ++ body }
  match k with
  | 0 => { Spdm.fresh with version := 1, transcript := req ++ body, lastMeas := s.lastMeas }
  | 1 => { s with caps := true }
  | 2 => { s with algs := true }
  | 6 => { s with lastMeas := body }
  | 7 => { s with session := 1 }
  | 8 => { s with session := if s.session = 1 then 2 else s.session }
  | 9 => { s with session := 0 }
  | _ => s

/-- An SPDM request is answered. -/
def spdmRequest (nv : NonVol) (k : Nat) (t : Transport) (req : Bytes) (m : Mach) : Mach :=
  if m.spdmReady t req then
    let body := Config.messageBody (0x10 + k) req (m.spdmReport nv t k req)
    (m.setSpdm t ((m.spdm t).after k req body)).spdmAnswer t body
  else m

/-! ## KEYAGREE (R366) -/

/-- The request's fields in the order of R366, as the signature covers them (log entry 9). -/
def KeyReq.fields (k : KeyReq) : Bytes :=
  toBytes 1 k.purpose ++ toBytes 1 k.part ++ toBytes 1 k.slot ++ toBytes 2 k.peer ++ toBytes 1 k.ppart ++ slice k.pub 0 32

def KeyReq.bytes (k : KeyReq) : Bytes := (KeyReq.fields k) ++ slice k.tkey 0 32 ++ slice k.sig 0 64

/-- SEC_TENANT[p].TKEY as 64 bytes. -/
def Mach.tenantHash (m : Mach) (p : Nat) : Bytes := ((List.range 8).map (fun k => toBytes 8 (m.rd .SEC_TENANT_TKEY p k))).flatten

/-- Label of the derived keys. -/
def keyLabel : Bytes := "KWN key".toList.map (fun c => BitVec.ofNat 8 c.toNat)

/-- The request is one the block accepts, given the shared secret. -/
def Mach.keyReqOk (m : Mach) (k : KeyReq) (shared : Bytes) : Bool :=
  decide (1 ≤ k.purpose) && decide (k.purpose ≤ 4) && decide (k.part < 16) && (k.purpose != 3 || (decide (1 ≤ k.slot) && decide (k.slot < 256))) &&
    (m.tenantHash k.part).any (· != 0) && Config.sha512 (slice k.tkey 0 32) == m.tenantHash k.part &&
    Config.edVerify (slice k.tkey 0 32) (KeyReq.fields k) (slice k.sig 0 64) && shared.any (· != 0)

/-- A key is loaded for its purpose; a link key binds its slot and starts its frame counter at 0 (R297). -/
def Mach.loadKey (m : Mach) (k : KeyReq) (key : Bytes) : Mach :=
  if k.purpose = 3 then
    let m := (((m.wr .SEC_KEYST_VALID 1 k.slot).wr .SEC_KEYST_PART k.part k.slot).wr .SEC_KEYST_PEER k.peer k.slot).wr .SEC_KEYST_PPART k.ppart k.slot
    ({ m with fcnt := nset (fun _ => 0) m.fcnt k.slot 0, rxcnt := nset (fun _ => RxCount.fresh) m.rxcnt k.slot RxCount.fresh } : Mach).setKey 3 k.slot key
  else m.setKey k.purpose k.part key

/-- The KEYAGREE exchange. -/
def keyAgree (t : Transport) (k : KeyReq) (m : Mach) : Mach :=
  if m.spdmReady t (KeyReq.bytes k) then
    let seed := Config.random m.fresh
    let m : Mach := { m with fresh := m.fresh + 1 }
    let shared := Config.x25519 seed (slice k.pub 0 32)
    let own := Config.x25519 seed (9 :: List.replicate 31 0)
    if m.keyReqOk k shared then
      let key := slice (Config.sha512 (keyLabel ++ toBytes 1 k.purpose ++ toBytes 1 k.part ++ shared ++ slice k.pub 0 32 ++ own)) 0 32
      let sig := Config.edSign identitySeed (Config.sha512 ((KeyReq.bytes k) ++ own ++ Config.sha512 (m.spdm t).lastMeas))
      (m.loadKey k key).spdmAnswer t (own ++ sig)
    else (m.postSec fkKeyAgree).spdmAnswer t []
  else m

/-! ## Weight measurements (R365) -/

/-- [x, e) lies in allocations of p with a right, entry after entry. -/
def Mach.grantedTo (m : Mach) (p : Nat) (wr : Bool) (e : Nat) : Nat → Nat → Bool
  | 0, x => decide (e ≤ x)
  | k + 1, x =>
    decide (e ≤ x) ||
      (match (List.range 256).find? (fun a => m.allocCovers p a x 1 && m.flag (if wr then .SEC_ALLOC_WRITE else .SEC_ALLOC_READ) p a) with
       | some a => m.grantedTo p wr e k (m.rd .SEC_ALLOC_BASE p a + m.rd .SEC_ALLOC_LEN p a)
       | none => false)

/-- Ranges of a measurement that are not empty, in index order. -/
def Mach.measured (m : Mach) (p : Nat) : List (Nat × Nat) :=
  ((List.range 4).map (fun r => (m.rd .SEC_TENANT_WMEAS_BASE p r, m.rd .SEC_TENANT_WMEAS_LEN p r))).filter (fun x => x.2 != 0)

/-- WMEASCTL.GO. -/
def measureGo (p : Nat) (m : Mach) : Mach :=
  if m.flag .SEC_TENANT_WMEASCTL_BUSY p then m
  else if (m.measured p).all (fun x => m.grantedTo p false (x.1 + x.2) 256 x.1) then
    (m.wr .SEC_TENANT_WMEASCTL_BUSY 1 p).wr .SEC_TENANT_WMEASCTL_LEAVES 0 p
  else m.wr .SEC_TENANT_WMEASCTL_STATUS stDescRights p

/-- One level of the hash tree: pairs are hashed, a node without a right child is promoted. -/
def hashLevel : List Bytes → List Bytes
  | a :: b :: rest => Config.sha512 (1 :: (a ++ b)) :: hashLevel rest
  | l => l

/-- The root, after enough levels. -/
def hashRoot : Nat → List Bytes → Bytes
  | 0, l => l.headD []
  | k + 1, l => if l.length ≤ 1 then l.headD [] else hashRoot k (hashLevel l)

/-- Leaves of 1 MiB, the last one shorter. -/
def leavesOf (n : Nat) : Nat := ceilDiv n (2 ^ 20)

def Mach.rangeRoot (m : Mach) (a n : Nat) : Bytes :=
  hashRoot 64 ((List.range (leavesOf n)).map (fun i => Config.sha512 (0 :: m.read false (a + i * 2 ^ 20) (min (2 ^ 20) (n - i * 2 ^ 20)))))

/-- A measurement ends. Data that cannot be read ends it with ST_UE, and the index keeps its value. -/
def measureDone (p : Nat) (m : Mach) : Mach :=
  if !m.flag .SEC_TENANT_WMEASCTL_BUSY p then m
  else
    let rs := m.measured p
    let m := m.wr .SEC_TENANT_WMEASCTL_BUSY 0 p
    if rs.any (fun x => m.readUe false x.1 x.2) then
      (rs.foldl (fun m x => m.noteRead false x.1 x.2) m).wr .SEC_TENANT_WMEASCTL_STATUS stUe p
    else
      let digest := Config.sha512 ((rs.map (fun x => toBytes 8 x.1 ++ toBytes 8 x.2 ++ m.rangeRoot x.1 x.2)).flatten)
      let m := rs.foldl (fun m x => m.noteRead false x.1 x.2) m
      let m := (m.wr .SEC_TENANT_WMEASCTL_STATUS stOk p).wr .SEC_TENANT_WMEASCTL_LEAVES (rs.foldl (fun s x => s + leavesOf x.2) 0) p
      { m with trust := { m.trust with wmeas := nset (fun _ => []) m.trust.wmeas p digest } }

/-! ## Sealed partitions (R368) and imports (R371) -/

/-- CTL.SEALED is written 1. -/
def partitionSeal (p : Nat) (m : Mach) : Mach :=
  if p = 0 then m else if m.flag .RST_MODE_TEST then m.badAcc else m.wr .SEC_TENANT_CTL_SEALED 1 p

/-- Partition p's keys and link slots are zeroed. -/
def Mach.eraseKeys (m : Mach) (p : Nat) : Mach :=
  let m := ((m.setKey 1 p []).setKey 2 p []).setKey 4 p []
  (List.range 256).foldl (fun m k =>
    if m.flag .SEC_KEYST_VALID k && m.rd .SEC_KEYST_PART k == p then
      ((((m.setKey 3 k []).wr .SEC_KEYST_VALID 0 k).wr .SEC_KEYST_PART 0 k).wr .SEC_KEYST_PEER 0 k).wr .SEC_KEYST_PPART 0 k
    else m) m

/-- The forgets and key erasure of a sealed partition that a reset takes, and SEALED clears. -/
def Mach.unseal (m : Mach) (p : Nat) : Mach :=
  if m.isSealed p then
    let m := (List.range 256).foldl (fun m a =>
      if m.rd .SEC_ALLOC_LEN p a = 0 then m else m.forgetRange (m.rd .SEC_ALLOC_BASE p a) (m.rd .SEC_ALLOC_LEN p a)) m
    (m.eraseKeys p).wr .SEC_TENANT_CTL_SEALED 0 p
  else m

def chunkLen : Nat := 2 ^ 20

/-- IMPORT's ciphertext lies in the host window, or in a stack range of partition 0. -/
def Mach.importSrcOk (m : Mach) (a n : Nat) : Bool :=
  m.rangeOk a n && (m.region a == 4 || (m.inStacks a && m.grantedTo 0 false (a + n) 256 a))

/-- IMPORT.GO with its length. -/
def importGo (p len : Nat) (m : Mach) : Mach :=
  let m := m.wr .SEC_TENANT_IMPORT_LEN len p
  let n := m.rd .SEC_TENANT_IMPORT_LEN p
  let dst := m.rd .SEC_TENANT_IMPORT_DST p
  if m.flag .SEC_TENANT_IMPORTST_BUSY p then m
  else if (m.key 4 p).isEmpty then m.wr .SEC_TENANT_IMPORTST_STATUS stKeyAbsent p
  else if !(m.grantedTo p true (dst + n) 256 dst && m.importSrcOk (m.rd .SEC_TENANT_IMPORT_SRC p) (n + 16 * ceilDiv n chunkLen)) then
    m.wr .SEC_TENANT_IMPORTST_STATUS stDescRights p
  else (m.wr .SEC_TENANT_IMPORTST_BUSY 1 p).wr .SEC_TENANT_IMPORTST_CHUNKS 0 p

/-- Chunks c, c + 1, … until one fails its tag: answers the chunks written, and whether one failed. -/
def importChunks (p src dst len : Nat) : Nat → Nat → Mach → Mach × Nat × Bool
  | 0, c, m => (m, c, false)
  | k + 1, c, m =>
    let off := c * chunkLen
    let n := min chunkLen (len - off)
    let a := src + c * (chunkLen + 16)
    let text := m.read false a n
    let tag := m.read false (a + n) 16
    let m := m.noteRead false a (n + 16)
    match (if m.readUe false a (n + 16) then none else Config.gcmOpen (m.key 4 p) c (toBytes 8 off) text tag) with
    | some bs => importChunks p src dst len k (c + 1) (m.write p false (dst + off) (slice bs 0 n)).1
    | none => (m.forgetRange (dst + off) n, c, true)

/-- All chunks of a partition's import, from the first. -/
def Mach.importAll (m : Mach) (p : Nat) : Mach × Nat × Bool :=
  let len := m.rd .SEC_TENANT_IMPORT_LEN p
  importChunks p (m.rd .SEC_TENANT_IMPORT_SRC p) (m.rd .SEC_TENANT_IMPORT_DST p) len (ceilDiv len chunkLen) 0 m

/-- An import ends. -/
def importDone (p : Nat) (m : Mach) : Mach :=
  if !m.flag .SEC_TENANT_IMPORTST_BUSY p then m
  else
    let r := m.importAll p
    let m := (r.1.wr .SEC_TENANT_IMPORTST_BUSY 0 p).wr .SEC_TENANT_IMPORTST_CHUNKS r.2.1 p
    if r.2.2 then (m.wr .SEC_TENANT_IMPORTST_STATUS stAuthFail p).postSec fkImportAuth else m.wr .SEC_TENANT_IMPORTST_STATUS stOk p

/-! ## The allocation table (R173, R174, R370) -/

/-- An entry takes a written word. -/
def Mach.putAlloc (m : Mach) (p a : Nat) (len : Bool) (v : Nat) : Mach :=
  if len then m.wr .SEC_ALLOC_LEN v p a
  else ((m.wr .SEC_ALLOC_BASE v p a).wr .SEC_ALLOC_READ (v / 2 ^ 48) p a).wr .SEC_ALLOC_WRITE (v / 2 ^ 49) p a

/-- An entry as it stands meets R173, and R370 where its partition is sealed. -/
def Mach.allocOk (m : Mach) (p a : Nat) : Bool :=
  let base := m.rd .SEC_ALLOC_BASE p a
  let n := m.rd .SEC_ALLOC_LEN p a
  base % 4096 == 0 && (n == 0 || (n % 4096 == 0 && m.rangeOk base n && !(m.isSealed p && m.region base == 4 && m.flag .SEC_ALLOC_WRITE p a)))

/-- Forgets of a range start, one in each stack it lies in. -/
def Mach.startForgets (m : Mach) (x n : Nat) (o : ForgetOwner) : Mach :=
  (m.stacksOf x n).foldl (fun m s =>
    ({ m with forgets := m.forgets ++ [⟨s, x, n, o⟩] } : Mach).dropWhere (fun g => g / 2 ^ 25 == s && granuleIn x n g)) m

/-- A word reaches an entry, or is ignored and counted: no descriptor may refer to the entry, and it must meet R173 with the word (R173, R174). -/
def Mach.tryAlloc (m : Mach) (p a : Nat) (len : Bool) (v : Nat) : Mach :=
  let new := m.putAlloc p a len v
  if m.rd .SEC_ALLOC_REFS p a ≠ 0 ∨ !new.allocOk p a then m.badAcc else new

/-- The entry as it will stand with the words that wait for their forgets. -/
def Mach.withPended (m : Mach) (p a : Nat) : Mach :=
  (m.allocPend.filter (fun e => e.1 == p && e.2.1 == a)).foldl (fun m e => m.putAlloc p a e.2.2.1 e.2.2.2) m

/-- A write of an allocation entry: BASE and the rights, or LEN. -/
def allocWrite (p a : Nat) (len : Bool) (v : Nat) (m : Mach) : Mach :=
  let new := (m.withPended p a).putAlloc p a len v
  if m.rd .SEC_ALLOC_REFS p a ≠ 0 ∨ !new.allocOk p a then m.badAcc
  else if !m.isSealed p then m.tryAlloc p a len v
  else
    let own : ForgetOwner := .alloc p a
    let m' := (m.startForgets (m.rd .SEC_ALLOC_BASE p a) (m.rd .SEC_ALLOC_LEN p a) own).startForgets (new.rd .SEC_ALLOC_BASE p a) (new.rd .SEC_ALLOC_LEN p a) own
    if m'.forgets.any (fun f => f.owner == own) then { m' with allocPend := m'.allocPend ++ [(p, a, len, v)] } else m.tryAlloc p a len v

/-- Writes of an entry whose forgets are all over take effect, each checked against the entry as it then stands (R173, R174). -/
def Mach.releaseAlloc (m : Mach) (p a : Nat) : Mach :=
  if m.forgets.any (fun f => f.owner == .alloc p a) then m
  else
    let mine := m.allocPend.filter (fun e => e.1 == p && e.2.1 == a)
    let m : Mach := { m with allocPend := m.allocPend.filter (fun e => !(e.1 == p && e.2.1 == a)) }
    mine.foldl (fun m e => m.tryAlloc p a e.2.2.1 e.2.2.2) m

/-- The oldest forget of a stack has cleared its last bits (R221). -/
def forgetDone (n : Nat) (m : Mach) : Mach :=
  match m.forgets.find? (fun f => f.stack == n) with
  | none => m
  | some f =>
    let m : Mach := { m with forgets := m.forgets.erase f }
    match f.owner with
    | .register => ((m.forgetNow n f.base f.len).wr .STACK_FORGETST_BUSY 0 n).wr .STACK_FORGETST_DONE 1 n
    | .alloc p a => ((m.dropWhere (fun g => g / 2 ^ 25 == n && granuleIn f.base f.len g)).clearWhere (fun g => g / 2 ^ 25 == n && granuleIn f.base f.len g)).releaseAlloc p a

end Sys2Proof.Machine
end

