-- ==== Sys2Proof/Machine/Reset.lean ====
section
/-! DEFINITION. Resets, start-up and Twilight (file 16): cold and warm reset, the failed start, partition reset and unit reset, test mode. -/
namespace Sys2Proof.Machine

/-! ## What a reset leaves (R13, R28, R308, R339, R355, R389, R396; log entry 28) -/

/-- Registers of stacks, links and trips, and the kept ones of GLOBAL and RST, hold through warm reset; the lock group of FAULT_CFG does while LOCK is 1. -/
def keptWarm (faultLock : Bool) (f : Fld) : Bool :=
  match f with
  | .GLOBAL_BLOCK_NUM | .RST_CAUSE_POR | .RST_CAUSE_MRST | .RST_START_FAILS | .RST_START_LASTMS | .RST_MODE_TWILIGHT | .RST_MODE_TEST
  | .STACK_ID_STATE | .STACK_OFFLINE_BANKS | .STACK_WMSTAT_WRITTEN | .THERM_TRIP_DIE | .THERM_TRIP_DRAM
  | .LINK_STATE_STATE | .LINK_STATE_NBLOCK | .LINK_STATE_NPORT | .LINK_STATE_FIBRE => true
  | .FAULT_CFG_LOCKSTEP | .FAULT_CFG_DIAGEN | .FAULT_CFG_DIAGPER | .FAULT_CFG_LOCK => faultLock
  | _ => false

/-- The refresh and throttle flags of the stacks: they follow the temperature, and no reset changes them (R225). -/
def Mach.stackFlags (m : Mach) : List (Nat × Stack) :=
  (List.range 12).foldl (fun l n => nset (fun _ => Stack.fresh) l n { Stack.fresh with hot := (m.stack n).hot, throt := (m.stack n).throt }) []

/-- Outputs that a reset drives: the expanders' resets where the far-tier port was on. -/
def Mach.dropFar (m : Mach) : Mach :=
  if m.flag .FARCXL_CTL_ENABLE then (List.range 4).foldl (fun m e => m.emit (.pin (pinFarPerst e) false)) m else m

/-- The block under cold reset: everything at its reset value but what no reset reaches. -/
def Mach.cleared (m : Mach) : Mach :=
  { Mach.reset with
    fresh := m.fresh, hostMem := m.hostMem, stackTab := m.stackFlags, farData := m.farData, farLost := m.farLost, unplugged := m.unplugged, out := m.out
    resets := { Resets.reset with cold := true } }

/-- Frames that pass through, and STOP and START frames: the links carry them on through a warm reset. -/
def Mach.passing (m : Mach) : List TxEntry := m.txq.filter (fun e => e.cls == 1 || e.cls == 4)

/-- Clock domains that run on through a warm reset: the ports that are UP. -/
def Mach.linkDoms (m : Mach) : List (Nat × Dom) := m.doms.filter (fun d => decide (240 ≤ d.1) && decide (d.1 < 256) && m.portUp (d.1 - 240))

/-- Banks that were to go offline are offline. -/
def Mach.offlineNow (m : Mach) : Mach :=
  (m.banks.filter (fun b => b.2.goingOffline)).foldl (fun m b => m.setB .STACK_OFFLINE_BANKS (b.1 % 64) (b.1 / 512) (b.1 % 512 / 64)) m

/-- The block under warm reset: its stacks, retirements, links and kept registers hold, the rest is at its reset value. -/
def Mach.warmed (m : Mach) : Mach :=
  let lock := m.flag .FAULT_CFG_LOCK
  { Mach.reset with
    regs := m.regs.filter (fun e => keptWarm lock e.1.f)
    time := { TimeBase.reset with ns := m.time.ns }
    fresh := m.fresh
    mem := m.mem.filter (fun e => decide (e.1 < coreBase))
    written := m.written
    wrong := m.wrong.filter (fun e => decide (e.1 * 16 < coreBase))
    wmWrong := m.wmWrong
    hostMem := m.hostMem
    stackTab := m.stackTab
    coreMap := m.coreMap
    doms := m.linkDoms
    farData := m.farData
    farLost := m.farLost
    txq := m.passing
    unplugged := m.unplugged
    power := { Power.reset with convs := m.power.convs.filter (fun k => k.owner == .sideband) }
    resets := { Resets.reset with recovered := m.resets.recovered }
    out := m.out }

/-- Retirements that were pending take effect: no core group holds a core any more (R149). -/
def Mach.retirePending (m : Mach) : Mach :=
  (List.range 192).foldl (fun m n => if (m.map n).st == 3 then m.retireNow n else m) m

/-- A port that was dark is enabled again, as its CTL is (R308): it trains. -/
def Mach.lightPorts (m : Mach) : Mach :=
  (List.range 16).foldl (fun m n =>
    if m.rd .LINK_STATE_STATE n = 4 then
      let m := m.wr .LINK_STATE_STATE 1 n
      if m.plugged n then m.emit (.pin (pinLaser n) true) else m
    else m) m

/-! ## Cold reset (R398) -/

/-- A rail-good input whose rail the block holds disabled in Midnight counts as high (R415). -/
def Mach.railIgnored (m : Mach) (r : Nat) : Bool := decide (r < 3) && m.rd .PWR_STATE_CUR == 3

/-- The enables of the core and SRAM rails. -/
def Mach.pwrEn (m : Mach) (v : Bool) : Mach := ((m.emit (.pin (pinPwrEn 0) v)).emit (.pin (pinPwrEn 1) v)).emit (.pin (pinPwrEn 2) v)

/-- Cold reset is asserted, from MRST_N or from power-on; asserted already, it stays (R407). -/
def Mach.coldAssert (m : Mach) (mrst : Bool) : Mach :=
  if m.resets.cold then m
  else
    let tripped := m.rd .THERM_TRIP_DIE != 0 || m.rd .THERM_TRIP_DRAM != 0
    let m := m.dropFar
    let m := if tripped then m.emit (.pin pinThermtrip true) else m
    (m.cleared.wr .RST_CAUSE_POR (b2n (!mrst))).wr .RST_CAUSE_MRST (b2n mrst)

/-- What a condition of R398 does; a pulse on MRST_N of 2 µs to 10 µs has no stated effect. -/
def coldCause (cause : ColdCause) (m : Mach) : Option Mach :=
  match cause with
  | .railLow r => some (if m.railIgnored r then m else (if 3 ≤ r then m.pwrEn false else m).coldAssert false)
  | .clockAbsent => some (m.coldAssert false)
  | .mrst ns => if ns < 2000 then some m else if ns < 10000 then none else some (m.coldAssert true)

/-- Ports train: those enabled and DOWN. -/
def Mach.trainPorts (m : Mach) : Mach :=
  (List.range 16).foldl (fun m n => if m.rd .LINK_STATE_STATE n = 0 ∧ m.flag .LINK_CTL_ENABLE n then m.wr .LINK_STATE_STATE 1 n else m) m

/-- A throttle flag that is set when a reset is released counts as an onset (R225). -/
def Mach.throttleAgain (m : Mach) : Mach :=
  (List.range 12).foldl (fun m n =>
    if (m.stack n).throt then (m.inc .STACK_TEMP_COUNT 1 n).post ⟨0, 0, 0, 9, 2 + n, fkThrottle⟩ else m) m

/-- Cold reset is released: the block starts, with its time base at 0 (R28, R403). -/
def coldRelease (m : Mach) : Mach :=
  if m.resets.cold then
    let m : Mach := { m with resets := { m.resets with cold := false } }
    (m.trainPorts.throttleAgain).pwrEn true
  else m

/-! ## Twilight (R342, R405) -/

/-- The block is in Twilight: no partition exists, and SEC_BOOT.STATE shows the mode. -/
def Mach.enterTwilight (m : Mach) : Mach :=
  let m := (m.wr .RST_MODE_TWILIGHT 1).wr .SEC_BOOT_STATE 4
  (m.wr .SEC_PART_CTL_ENABLE 0 0).wr .SEC_PART_CTL_RESIDENT 0 0

/-- The start-up test ends, before the host port is up and before any firmware: a failing part of the control cluster puts the block in Twilight. -/
def startupChecker (failed : List CheckerPart) (m : Mach) : Mach :=
  if m.hostUp || m.firmware || m.twilight then m
  else
    let m := startupTest failed m
    if m.resets.startFail then m.enterTwilight else m

/-! ## Warm reset (R368, R399, R404) -/

/-- The cause of a warm reset. -/
inductive WarmCause where
  | soft
  | timeout
  | save
  deriving DecidableEq, Repr

/-- Warm reset is asserted; the forgets of sealed partitions are over before it is released (log entry 28). -/
def Mach.warmAssert (m : Mach) (cause : WarmCause) : Mach :=
  let m := (List.range 16).foldl (fun m p => m.unseal p) m
  let m := (m.offlineNow.dropFar).warmed
  let m := (m.retirePending).lightPorts
  let m := ((m.wr .RST_CAUSE_SOFT (b2n (cause == .soft))).wr .RST_CAUSE_TIMEOUT (b2n (cause == .timeout))).wr .RST_CAUSE_MNSAVE (b2n (cause == .save))
  { m with resets := { m.resets with warm := some m.time.ns, lateDue := cause == .timeout } }

/-- RST_CTL.WARM: the Halt reaction, then the reset. -/
def warmRequest (m : Mach) : Mach := m.reactHalt.warmAssert .soft

/-- The time base resumes from the always-on copy, taken at `since`: within 1% of the interval and 62.5 ns of the time that has passed (R28). -/
def Mach.resumeCopy (m : Mach) (since : Nat) : Mach :=
  let bound := (m.time.ns - since) / 100 + 62
  let r := m.draw
  r.2.stepTime (max since (m.time.ns + r.1 % (2 * bound + 1) - bound))

/-- The mode of the start that follows a release (R404, R405): leaving Twilight clears FAILS where recovery firmware had started. -/
def Mach.startMode (m : Mach) : Mach :=
  let m := if m.twilight then (if m.resets.recovered then m.wr .RST_START_FAILS 0 else m).wr .RST_MODE_TWILIGHT 0 else m
  let m : Mach := { m with resets := { m.resets with recovered := false } }
  if m.rd .RST_START_FAILS = 3 then m.enterTwilight else m

/-- Warm reset is released, 20 µs after its assertion. -/
def warmRelease (m : Mach) : Mach :=
  match m.resets.warm with
  | none => m
  | some t =>
    if m.time.ns < t + 20000 then m
    else
      let m := m.resumeCopy t
      let late := m.resets.lateDue
      let m : Mach := { m with resets := { m.resets with warm := none, lateDue := false }, trust := { m.trust with releaseNs := m.time.ns } }
      let m := if late then m.post ⟨0, 0, 0, 7, 0, fkStartLate⟩ else m
      (m.trainPorts.throttleAgain).startMode

/-- STARTED is still 0 two seconds after release (R404). -/
def startTimeout (m : Mach) : Mach :=
  if m.flag .SEC_BOOT_STARTED || m.rd .SEC_BOOT_STATE == 4 || decide ((m.time.ns : Int) < m.trust.releaseNs + 2000000000) then m
  else (m.wr .RST_START_FAILS (min 3 (m.rd .RST_START_FAILS + 1))).warmAssert .timeout

/-- A stage of Dawn signals ready; a Midnight save area that fails its tag takes a warm reset (R384), and the time base resumes with the logic (R28). -/
def dawnReady (tag : Verdict) (m : Mach) : Mach :=
  let back := m.rd .PWR_STATE_CUR == 3 && m.power.dawnAt.isSome && m.rd .PWR_STATE_DAWNSTAGE == 4
  let r := m.dawnStage tag
  if r.2 then r.1.warmAssert .save else if back then r.1.resumeCopy (m.power.acceptedAt * 100) else r.1

/-! ## Partition reset (R401) -/

/-- Partition p takes part in a switch. -/
def Mach.inSwitch (m : Mach) (p : Nat) : Bool := m.flag .SEC_PSW_BUSY && (m.switch.out == p || m.switch.inn == p)

/-- The Step reaction of a partition reset, and the step closed: markers carry ST_RESET, LISTED and WDR clear (R282). -/
def Mach.resetStep (m : Mach) (p : Nat) : Mach :=
  let listed := if m.flag .SEQR_STEP_OPEN p then (m.mon p).list else []
  let m := (m.withdrawAll p stReset).reactStep p
  listed.foldl (fun m s => m.setSess s.1 { m.sess s.1 with listed := false, wdr := false }) m

/-- Progress of a command that a reset ends, and the statuses of its items (R102, R105). -/
def Mach.resetIssued (m : Mach) (c : Issued) : Issued :=
  let mine := m.items.filter (fun it => it.cmdId == c.id)
  let sts : List Nat := if mine.isEmpty then c.itemSt.map (fun s => s.getD stReset)
    else mine.map (fun it => if it.phase = .finished then it.failed.getD (if it.degraded then stDegraded else stOk) else stReset)
  let n := c.cmd.p3
  if c.cmd.opcode = 2 ∨ c.cmd.opcode = 0xA ∨ (c.cmd.opcode = 9 ∧ 3 ≤ seqOp c.cmd) then
    let sts := sts ++ List.replicate (n - sts.length) stReset
    { c with result := some stReset, items := c.cmd.p4, itemSt := sts.map some, progress := itemsDone sts }
  else if c.cmd.opcode = 1 ∧ c.started then { c with result := some stReset, progress := m.groupProgress c }
  else { c with result := some stReset }

/-- Every issued command of p completes with ST_RESET; what it still has in flight is dropped at the wrapper (R400). -/
def Mach.resetCommands (m : Mach) (p : Nat) : Mach :=
  let cs := m.sq.issued.filter (fun c => c.part == p)
  let ids := cs.map (·.id)
  let gone := (m.farOps.filter (fun f => f.part == p)).length + (m.requests.filter (fun r => ids.contains r.cmdId)).length +
    (m.txq.filter (fun e => e.owner.any ids.contains)).length
  let m := m.isoAbort none p 10 p gone
  let m : Mach := { m with
    farOps := m.farOps.filter (fun f => f.part != p)
    requests := m.requests.filter (fun r => !ids.contains r.cmdId)
    txq := m.txq.filter (fun e => !e.owner.any ids.contains)
    groupStops := m.groupStops.filter (fun g => !ids.contains g.cmdId)
    pair := { m.pair with waits := m.pair.waits.filter (fun w => !ids.contains w.cmdId), twins := m.pair.twins.filter (fun d => d.part != p) } }
  let m := cs.foldl (fun m c => if c.cmd.opcode = 1 ∧ c.started ∧ m.resident p then (m.kernelCores c).foldl Mach.stopCore m else m) m
  cs.foldl (fun m c => m.complete (m.resetIssued c) stReset) m

/-- Items of p: a started one keeps its plan, without effect, and stops at the next yield point of its bank; the others end at once (R207). -/
def Mach.resetItems (m : Mach) (p : Nat) : Mach :=
  { m with items := (m.items.filter (fun it => it.part != p || (it.phase != .waiting && it.phase != .finished))).map (fun it =>
      if it.part = p then { it with failed := some stReset, stopped := it.stopped || !it.phase.holdsBank } else it) }

/-- Every descriptor of p is destroyed, and its pools are emptied (R177, R235). -/
def Mach.resetTables (m : Mach) (p : Nat) : Mach :=
  let live := (m.descs.filter (fun d => d.1 / 4096 == p && d.2.st != 0)).map (fun d => d.1 % 4096)
  let m := live.foldl (fun m i =>
    let m := if (m.desc p i).st = 1 then m.drainDesc p i else m
    descDrainDone p i m) m
  let m := { m.wr .SEC_DRES_BUSY 0 p with creating := nset (fun _ => []) m.creating p [], adds := m.adds.filter (fun a => a.1 / 16 != p) }
  (List.range 12).foldl (fun m n => ((m.wr .SEC_POOL_COUNT_FREE 0 p n).wr .SEC_POOL_LOW_HIT 0 p n).wr .SEC_POOL_ADDST_BUSY 0 p n) m

/-- The cores of a resident partition, or its saved ones, and its save area: all zero. -/
def Mach.resetCores (m : Mach) (p : Nat) : Mach :=
  let ls := m.partLogical p
  let m := if m.resident p then (ls.filterMap m.physOf).foldl (fun m n => m.wipeCore n) m else m
  let m : Mach := { m with saved := m.saved.filter (fun s => s.part != p) }
  (m.writeLocal 0 false (m.rd .SEC_PART_SAVE_BASE p) (List.replicate (ls.length * 2621440) 0)).1

/-- Fields of the SEQR window. -/
def seqrFields : List Fld := (wordsSeqr.map (·.flds)).flatten

/-- The registers, counters and step state of p's window take their reset values (R108, R283). -/
def Mach.resetWindow (m : Mach) (p : Nat) : Mach :=
  let s := m.sq
  let mine (k : Nat) : Bool := k / 32 == p
  { m with
    regs := m.regs.filter (fun e => !(e.1.i == p && seqrFields.contains e.1.f))
    mons := erase p m.mons
    sq := { s with
      snapTail := s.snapTail.filter (fun e => !mine e.1), inTick := s.inTick.filter (fun e => !mine e.1)
      tokDelta := s.tokDelta.filter (fun e => !mine e.1), evDelta := s.evDelta.filter (fun e => e.1 / 256 != p)
      paramPend := s.paramPend.filter (fun e => e.1 != p), tbasePend := s.tbasePend.filter (fun e => e.1 != p)
      evPend := s.evPend.filter (fun e => e.1 != p), resumePend := s.resumePend.filter (fun e => e.1 != p)
      preds := s.preds.filter (fun e => !mine e.1), outMarks := s.outMarks.filter (fun o => o.part != p) } }

/-- A weight measurement and an IMPORT of p that run are aborted with ST_RESET; what was measured before stands (R373). -/
def Mach.resetSecurity (m : Mach) (p : Nat) : Mach :=
  let m := if m.flag .SEC_TENANT_WMEASCTL_BUSY p then (m.wr .SEC_TENANT_WMEASCTL_BUSY 0 p).wr .SEC_TENANT_WMEASCTL_STATUS stReset p else m
  if m.flag .SEC_TENANT_IMPORTST_BUSY p then (m.wr .SEC_TENANT_IMPORTST_BUSY 0 p).wr .SEC_TENANT_IMPORTST_STATUS stReset p else m

/-- The steps of R401 for one partition. -/
def Mach.resetPart (m : Mach) (p : Nat) : Mach :=
  let m := ((m.resetStep p).resetCommands p).resetItems p
  let m := (((m.resetTables p).resetSecurity p).unseal p).resetCores p
  let m := if bit (m.rd .FAULT_STOP_STOPPED) p then (m.clrB .FAULT_STOP_STOPPED p).sendStop 4 (2 ^ p) else m
  m.resetWindow p

/-- RST_PART.GO with MASK: a partition that a switch involves waits for its end. -/
def partReset (mask : Nat) (m : Mach) : Mach :=
  let m := m.wr .RST_PART_MASK mask
  let mask := m.rd .RST_PART_MASK
  if m.partResetBusy then m.badAcc
  else (setBits 16 mask).foldl (fun m p => if m.inSwitch p then { m with resets := { m.resets with parts := m.resets.parts ++ [p] } } else m.resetPart p) m

/-- Partition resets that waited for a switch run once it has ended. -/
def Mach.runWaitingResets (m : Mach) : Mach :=
  if m.flag .SEC_PSW_BUSY then m
  else m.resets.parts.foldl (fun m p => m.resetPart p) { m with resets := { m.resets with parts := [] } }

/-! ## Unit reset (R402) -/

/-- The units that can be reset, by class: cores, stack sequencers, link ports. -/
def unitOk (cls inst : Nat) : Bool := (cls == 0 && decide (inst < 192)) || (cls == 1 && decide (inst < 12)) || (cls == 4 && decide (inst < 16))

/-- Fields of a core's window. -/
def coreFields : List Fld := (wordsCore.map (·.flds)).flatten

/-- A core's registers reset; its stores are kept. A kernel on its group stops as for a trap. -/
def Mach.resetCore (m : Mach) (n : Nat) : Mach :=
  let k := m.kernelOf n
  let own := (m.core n).kernel
  let m := m.setCore n { Core.idle with kernel := own }
  let m : Mach := { m with regs := m.regs.filter (fun e => !(e.1.i == n && coreFields.contains e.1.f)) }
  match k with
  | some c =>
    if c.result.isSome || m.groupStops.any (fun g => g.cmdId == c.id) then m
    else { m with groupStops := m.groupStops ++ [⟨c.id, stReset, 0, 0⟩] }
  | none => m

/-- A stack sequencer: unstarted items and commands report ST_RESET, running items end at their banks' next yield points. -/
def Mach.resetSequencer (m : Mach) (n : Nat) : Mach :=
  let cs := m.sq.issued.filter (fun c => c.queue == 8 + n && (c.cmd.opcode == 2 || c.cmd.opcode == 0xA) && c.result.isNone)
  let m := cs.foldl (fun m c => m.stopItems stReset c) m
  let m : Mach := { m with items := m.items.map (fun it =>
    if it.stack = n then (match it.phase with | .onBank _ => { it with failed := some stReset } | _ => it) else it) }
  let held := (m.items.filter (fun it => it.stack == n && (match it.phase with | .sending _ => true | .staged _ => true | _ => false)))
  held.foldl (fun m it =>
    let m : Mach := match it.phase with
      | .sending b => m.setBank n b { m.bank n b with sending := none }
      | .staged b => m.setBank n b { m.bank n b with staged := (m.bank n b).staged.filter (· != it.id) }
      | _ => m
    m.finishItem it (some stReset)) m

/-- RST_UNIT.GO with its fields. -/
def unitReset (cls inst : Nat) (m : Mach) : Mach :=
  let m := (m.wr .RST_UNIT_CLASS cls).wr .RST_UNIT_INST inst
  let cls := m.rd .RST_UNIT_CLASS
  let inst := m.rd .RST_UNIT_INST
  if unitOk cls inst then
    let m := m.post ⟨0, 0, 0, cls, inst, fkUnitReset⟩
    let m : Mach := { m with resets := { m.resets with units := m.resets.units.filter (· != (cls, inst)) ++ [(cls, inst)] } }
    match cls with
    | 0 => m.resetCore inst
    | 1 => m.resetSequencer inst
    | _ => if m.flag .LINK_CTL_ENABLE inst then m.portTrain inst else m.dropQueue inst
  else (m.wr .RST_UNIT_REFUSED 1).badAcc

/-- The oldest unit whose time has come leaves reset: a core and a sequencer at the event, a port only when it is UP. -/
def unitRelease (m : Mach) : Mach :=
  match m.resets.units.find? (fun u => u.1 != 4 || m.portUp u.2) with
  | some u => { m with resets := { m.resets with units := m.resets.units.erase u } }
  | none => m

/-! ## Test mode (R406) -/

/-- RST_MODE.TEST is written 1. -/
def testEnter (m : Mach) : Mach :=
  if m.lockdown || (List.range 256).any (fun k => m.flag .SEC_KEYST_VALID k) then m.badAcc else m.wr .RST_MODE_TEST 1

end Sys2Proof.Machine
end

