-- ==== Sys2Proof/Machine/ControlSpace.lean ====
section
/-! DEFINITION. Writes of the control space whole: the plain fields of a word, then what its command bits start; and the rows of the host die that wait for Day (R381). -/
namespace Sys2Proof.Machine

/-- A write of CTL.ENABLE of a partition: before firmware only partition 0 exists (R18). -/
def partitionWrite (p v : Nat) (m : Mach) : Mach := if p = 0 ∨ m.firmware then partitionEnable p v m else m.badAcc

/-- A service that is absent until firmware has started (R18). -/
def served (f : Mach → Mach) (m : Mach) : Mach := if m.firmware then f m else m.badAcc

/-- A write of an allocation entry: before firmware only partition 0 exists (R18). -/
def allocService (p a : Nat) (len : Bool) (v : Nat) (m : Mach) : Mach := if p = 0 ∨ m.firmware then allocWrite p a len v m else m.badAcc

/-- SEC_PSW.GO: the sequencer switches partitions only with firmware (R18). -/
def switchWrite (a b : Nat) (m : Mach) : Mach := if m.firmware then switchGo a b m else m.badAcc

/-- FAULT_INJ is accepted in test mode only (R355). -/
def injectArm (addr syms : Nat) (m : Mach) : Mach :=
  if m.flag .RST_MODE_TEST then ((m.wr .FAULT_INJ_ADDR addr).wr .FAULT_INJ_SYMS syms).wr .FAULT_INJ_ARM 1 else m.badAcc

/-- FAULT_RETIRE.GO by KIND; KIND 0 names nothing. -/
def retireKind (m : Mach) : Mach :=
  let n := m.rd .FAULT_RETIRE_STACK
  let b := m.rd .FAULT_RETIRE_BANK
  if 12 ≤ n ∧ m.rd .FAULT_RETIRE_KIND ≠ 0 then (m.wr .FAULT_RETST_REFUSED 1).badAcc
  else match m.rd .FAULT_RETIRE_KIND with
    | 1 => retireRow n b (m.rd .FAULT_RETIRE_ROW) m
    | 2 => retireBank n b m
    | 3 => retireStack n m
    | _ => m

/-- The first word of an allocation entry with a written piece put in. -/
def Mach.allocWord (m : Mach) (p a lo n v : Nat) : Nat :=
  let old := m.rd .SEC_ALLOC_BASE p a + m.rd .SEC_ALLOC_READ p a * 2 ^ 48 + m.rd .SEC_ALLOC_WRITE p a * 2 ^ 49
  old - bits old (lo + n - 1) lo * 2 ^ lo + v % 2 ^ n * 2 ^ lo

/-- LEN of an allocation entry with a written piece put in. -/
def Mach.allocLen (m : Mach) (p a lo n v : Nat) : Nat :=
  let old := m.rd .SEC_ALLOC_LEN p a
  old - bits old (lo + n - 1) lo * 2 ^ lo + v % 2 ^ n * 2 ^ lo

/-- What a written field starts: v is its written value, [lo, lo + n) the written bits of its word and w all of them. -/
def fieldAction (f : Fld) (i j v lo n w : Nat) (m : Mach) : Mach :=
  match f with
  | .GLOBAL_BLOCK_LOCK => if v = 1 then blockLock m else m
  | .TIME_CTL_LOAD => if v = 1 then timeLoad m else m
  | .TIME_CTL_ROLE => roleWrite v m
  | .SEQR_QCTL_ENABLE => queueEnable i j v m
  | .SEQR_QCTL_RESUME => if v = 1 then queueResume i j m else m
  | .SEQR_EVRAISE_EVENT => raiseWrite i v m
  | .CORE_MAP_RETIRE => if v = 1 then coreRetire i m else m
  | .CORE_IFILL_GO => if v = 1 then ifillGo i (m.rd .CORE_IFILL_SRC i) (m.rd .CORE_IFILL_DST i) (m.rd .CORE_IFILL_COUNT i) m else m
  | .SEC_DCTL_CREATE => if v = 1 then served (descCreate i) m else m
  | .SEC_DCTL_DESTROY => if v = 1 then descDestroy i (m.rd .SEC_DCTL_TARGET i) m else m
  | .SEC_ALLOC_BASE => if lo = 0 then allocService i j false (m.allocWord i j lo n w) m else m
  | .SEC_ALLOC_READ => if lo = 0 then m else allocService i j false (m.allocWord i j lo n w) m
  | .SEC_ALLOC_LEN => allocService i j true (m.allocLen i j lo n w) m
  | .SEC_POOL_ADD_GO => if v = 1 then served (poolAddGo i j (m.rd .SEC_POOL_ADD_FIRST i j) (m.rd .SEC_POOL_ADD_COUNT i j)) m else m
  | .SEC_PART_CTL_ENABLE => partitionWrite i v m
  | .SEC_PSW_GO => if v = 1 then switchWrite (m.rd .SEC_PSW_OUT) (m.rd .SEC_PSW_IN) m else m
  | .SEC_BOOT_GO => if v = 1 then firmwareGo (m.rd .SEC_BOOT_LEN) m else m
  | .SEC_BOOT_STARTED => if v = 1 then firmwareStarted m else m
  | .SEC_OPT_GO => if v = 1 then optionGo (m.rd .SEC_OPT_OFFSET) (m.rd .SEC_OPT_LEN) m else m
  | .SEC_TENANT_CTL_SEALED => if v = 1 then partitionSeal i m else m
  | .SEC_TENANT_WMEASCTL_GO => if v = 1 then measureGo i m else m
  | .SEC_TENANT_IMPORT_GO => if v = 1 then importGo i (m.rd .SEC_TENANT_IMPORT_LEN i) m else m
  | .STACK_FORGET_GO => if v = 1 then stackForgetGo i (m.rd .STACK_FORGET_BASE i) (m.rd .STACK_FORGET_LEN i) m else m
  | .LINK_CTL_RETRAIN => if v = 1 then retrain i m else m
  | .FARCXL_CTL_ENABLE => farPortEnable v m
  | .FAULT_ACK_GO => if v = 1 then faultAck (bits w 3 0) m else m
  | .FAULT_STOP_STOPPED => faultStopClear v m
  | .FAULT_RETIRE_GO => if v = 1 then retireKind m else m
  | .FAULT_SELF_GO => if v = 1 then served Mach.selfCheckStart m else m
  | .FAULT_INJ_ARM => if v = 1 then injectArm (m.rd .FAULT_INJ_ADDR) (m.rd .FAULT_INJ_SYMS) m else m
  | .PWR_REQ_GO => if v = 1 then powerStateRequest (m.rd .PWR_REQ_TARGET) m else m
  | .RST_CTL_WARM => if v = 1 then warmRequest m else m
  | .RST_MODE_TEST => if v = 1 then testEnter m else m
  | .RST_PART_GO => if v = 1 then partReset (m.rd .RST_PART_MASK) m else m
  | .RST_UNIT_GO => if v = 1 then unitReset (m.rd .RST_UNIT_CLASS) (m.rd .RST_UNIT_INST) m else m
  | _ => m

/-- Command bits are read where the write covers all of the field. -/
def runAction (i j lo n v : Nat) (m : Mach) (f : Fld) : Mach :=
  if f.meets lo n then fieldAction f i j (v % 2 ^ n / 2 ^ (f.info.lo - lo) % 2 ^ f.width) lo n v m else m

/-- A write of the control space: the plain fields of the word, then what its command bits start, in the order of the register table. -/
def fullWrite (off width v : Nat) (m : Mach) : Mach :=
  if accessOk off width ∧ off / 8 * 8 = 0x00800038 ∧ !m.flag .RST_MODE_TEST then m.badAcc
  else
    let m' := regWrite off width v m
    match (if accessOk off width && !m.coreHidden (off / 8 * 8) then wordAt (off / 8 * 8) else none) with
    | some (fs, i, j) => fs.foldl (fun m f => runAction i j (8 * (off % 8)) width v m f) m'
    | none => m'

/-- Offset of SEC_ARB. -/
def arbOffset : Nat := 0x00C00018

/-- SEC_ARB.ADVANCE is written by an agent: firmware that runs blows fuses up to the lower of the target and its SVN (R357). -/
def NonVol.advanceBy (nv : NonVol) (m : Mach) (who : Requester) (target : Nat) : NonVol :=
  if who = .fw ∧ m.awake ∧ m.fwRuns ∧ m.fwReaches arbOffset then nv.advance target (m.rd .SEC_BOOT_SVN) else nv

/-! ## Rows of the host die -/

def anyone (_ : Mach) : Bool := true

/-! ## Register rows: one command bit or field each -/

/-- REGISTER_WRITE (R11, R12). An access that R11 refuses is refused before anything is asked of its offset. -/
def rowRegisterWrite (who : Requester) (off width v : Nat) (m : Mach) : Mach :=
  if accessOk off width then m.accessAt who (.registerWrite who off width v) off (fullWrite off width v)
  else m.access who (.registerWrite who off width v) anyone (fun m => m.badRequest off)
/-- REGISTER_READ_CLEAR (R5, R11). -/
def rowRegisterReadClear (nv : NonVol) (who : Requester) (off width : Nat) (m : Mach) : Mach := m.access who (.registerReadClear who off width) anyone (regRead nv who off width)
/-- GLOBAL_BLOCK.LOCK (R13). -/
def rowGlobalBlockLock (who : Requester) (m : Mach) : Mach := m.accessAt who (.globalBlockLock who) 0x10 (blockLock)
/-- the low half of TIME_NOW (R29). -/
def rowTimeNowLowRead (who : Requester) (m : Mach) : Mach := m.access who (.timeNowLowRead who) anyone (timeLowRead who)
/-- TIME_CTL.LOAD (R27). -/
def rowTimeCtlLoad (who : Requester) (m : Mach) : Mach := m.accessAt who (.timeCtlLoad who) 0x00100018 (timeLoad)
/-- TIME_CTL.ROLE (R26). -/
def rowTimeRoleWrite (who : Requester) (v : Nat) (m : Mach) : Mach := m.accessAt who (.timeRoleWrite who v) 0x00100018 (roleWrite v)
/-- STACK[n].FORGET.GO (R221). -/
def rowStackForgetGo (who : Requester) (n base len : Nat) (m : Mach) : Mach := m.accessAt who (.stackForgetGo who n base len) (0x02000038 + n * 0x100000) (stackForgetGo n base len)
/-- SEC_POOL ADD.GO (R235). -/
def rowPoolAddGo (who : Requester) (p n first count : Nat) (m : Mach) : Mach := m.accessAt who (.poolAddGo who p n first count) (0x00D00028 + p * 0x10000 + n * 0x100) (served (poolAddGo p n first count))
/-- CORE[n].IFILL.GO (R145). -/
def rowIfillGo (who : Requester) (n src dst count : Nat) (m : Mach) : Mach := m.accessAt who (.ifillGo who n src dst count) (0x01000038 + n * 0x10000) (fun m => if m.coreHidden (0x01000038 + n * 0x10000) then m.badAcc else ifillGo n src dst count m)
/-- CORE[n].MAP.RETIRE (R149). -/
def rowCoreRetire (who : Requester) (n : Nat) (m : Mach) : Mach := m.accessAt who (.coreRetire who n) (0x01000008 + n * 0x10000) (coreRetire n)
/-- SEC_DCTL.CREATE (R176). -/
def rowDescriptorCreate (who : Requester) (p : Nat) (m : Mach) : Mach := m.accessAt who (.descriptorCreate who p) (0x00E00080 + p * 0x10000) (served (descCreate p))
/-- SEC_DCTL.DESTROY (R177). -/
def rowDescriptorDestroy (who : Requester) (p target : Nat) (m : Mach) : Mach := m.accessAt who (.descriptorDestroy who p target) (0x00E00080 + p * 0x10000) (descDestroy p target)
/-- a word of SEC_ALLOC[p][a] (R173, R370). -/
def rowSecAllocWrite (who : Requester) (p a : Nat) (len : Bool) (v : Nat) (m : Mach) : Mach := m.accessAt who (.secAllocWrite who p a len v) (0x00E01000 + p * 0x10000 + a * 0x10) (allocService p a len v)
/-- SEC_PART[p].CTL.ENABLE (R257). -/
def rowPartitionEnable (who : Requester) (p v : Nat) (m : Mach) : Mach := m.accessAt who (.partitionEnable who p v) (0x00C80000 + p * 0x100) (partitionWrite p v)
/-- SEC_PSW.GO (R278). -/
def rowPartitionSwitchGo (who : Requester) (a b : Nat) (m : Mach) : Mach := m.accessAt who (.partitionSwitchGo who a b) 0x00C81000 (switchWrite a b)
/-- LINK[n].CTL.RETRAIN (R308). -/
def rowLinkRetrain (who : Requester) (n : Nat) (m : Mach) : Mach := m.accessAt who (.linkRetrain who n) (0x03000010 + n * 0x10000) (retrain n)
/-- FARCXL_CTL.ENABLE (R319). -/
def rowFarPortEnable (who : Requester) (v : Nat) (m : Mach) : Mach := m.accessAt who (.farPortEnable who v) 0x03180000 (farPortEnable v)
/-- FAULT_ACK.GO (R346). -/
def rowFaultAck (who : Requester) (p : Nat) (m : Mach) : Mach := m.accessAt who (.faultAck who p) 0x00800010 (faultAck p)
/-- bits of FAULT_STOP (R348). -/
def rowFaultStopClear (who : Requester) (mask : Nat) (m : Mach) : Mach := m.accessAt who (.faultStopClear who mask) 0x00800018 (faultStopClear mask)
/-- FAULT_RETIRE.GO, KIND 1 (R337). -/
def rowRetireRow (who : Requester) (n b row : Nat) (m : Mach) : Mach := m.accessAt who (.retireRow who n b row) 0x00800020 (retireRow n b row)
/-- FAULT_RETIRE.GO, KIND 2 (R338). -/
def rowRetireBank (who : Requester) (n b : Nat) (m : Mach) : Mach := m.accessAt who (.retireBank who n b) 0x00800020 (retireBank n b)
/-- FAULT_RETIRE.GO, KIND 3 (R338). -/
def rowRetireStack (who : Requester) (n : Nat) (m : Mach) : Mach := m.accessAt who (.retireStack who n) 0x00800020 (retireStack n)
/-- FAULT_SELF.GO (R343). -/
def rowSelfCheckGo (who : Requester) (m : Mach) : Mach := m.accessAt who (.selfCheckGo who) 0x00800030 (served Mach.selfCheckStart)
/-- FAULT_INJ.ARM (R355). -/
def rowFaultInjArm (who : Requester) (addr syms : Nat) (m : Mach) : Mach := m.accessAt who (.faultInjArm who addr syms) 0x00800038 (injectArm addr syms)
/-- SEC_BOOT.GO (R356). -/
def rowFirmwareBootGo (who : Requester) (len : Nat) (m : Mach) : Mach := m.accessAt who (.firmwareBootGo who len) 0x00C00008 (firmwareGo len)
/-- SEC_BOOT.STARTED (R404). -/
def rowFirmwareStarted (who : Requester) (m : Mach) : Mach := m.accessAt who (.firmwareStarted who) 0x00C00010 (firmwareStarted)
/-- SEC_OPT.GO (R360). -/
def rowOptionStoreWrite (who : Requester) (offset len : Nat) (m : Mach) : Mach := m.accessAt who (.optionStoreWrite who offset len) 0x00C00040 (optionGo offset len)
/-- SEC_TENANT[p].WMEASCTL.GO (R365). -/
def rowWeightMeasureGo (who : Requester) (p : Nat) (m : Mach) : Mach := m.accessAt who (.weightMeasureGo who p) (0x00C20090 + p * 0x100) (measureGo p)
/-- SEC_TENANT[p].CTL.SEALED (R368). -/
def rowPartitionSeal (who : Requester) (p : Nat) (m : Mach) : Mach := m.accessAt who (.partitionSeal who p) (0x00C20000 + p * 0x100) (partitionSeal p)
/-- SEC_TENANT[p].IMPORT.GO (R371). -/
def rowImportGo (who : Requester) (p len : Nat) (m : Mach) : Mach := m.accessAt who (.importGo who p len) (0x00C200B0 + p * 0x100) (importGo p len)
/-- PWR_REQ.GO (R381). -/
def rowPowerStateRequest (who : Requester) (target : Nat) (m : Mach) : Mach := m.accessAt who (.powerStateRequest who target) 0x00900008 (powerStateRequest target)
/-- THERM_NOW[z] (R387). -/
def rowThermNowRead (who : Requester) (z : Nat) (m : Mach) : Mach := m.access who (.thermNowRead who z) anyone (thermNow who z)
/-- RST_CTL.WARM (R399). -/
def rowWarmResetRequest (who : Requester) (m : Mach) : Mach := m.accessAt who (.warmResetRequest who) 0x00B00000 (warmRequest)
/-- RST_PART.GO (R401). -/
def rowPartitionReset (who : Requester) (mask : Nat) (m : Mach) : Mach := m.accessAt who (.partitionReset who mask) 0x00B00020 (partReset mask)
/-- RST_UNIT.GO (R402). -/
def rowUnitReset (who : Requester) (cls inst : Nat) (m : Mach) : Mach := m.accessAt who (.unitReset who cls inst) 0x00B00028 (unitReset cls inst)
/-- RST_MODE.TEST (R406). -/
def rowTestModeEnter (who : Requester) (m : Mach) : Mach := m.accessAt who (.testModeEnter who) 0x00B00018 (testEnter)
/-- QCTL[q].RESUME, which the host may write of a sealed partition too (R104, R369). -/
def rowQctlResume (who : Requester) (p q : Nat) (m : Mach) : Mach := m.access who (.qctlResume who p q) anyone (queueResume p q)
/-- QCTL[q].ENABLE (R108). -/
def rowQctlEnable (who : Requester) (p q v : Nat) (m : Mach) : Mach := m.accessAt who (.qctlEnable who p q v) (0x00200038 + p * 0x10000 + q * 0x40) (queueEnable p q v)
/-- EVRAISE (R89). -/
def rowEvraise (who : Requester) (p e : Nat) (m : Mach) : Mach := m.accessAt who (.evraise who p e) (0x00200900 + p * 0x10000) (raiseWrite p e)

/-! ## Requests over the host port -/

/-- CXL.mem read (R314, R370). -/
def rowCxlMemRead (a len : Nat) (m : Mach) : Mach := m.hostRequest (.cxlMemRead a len) (memRead a len)
/-- CXL.mem write (R314, R370). -/
def rowCxlMemWrite (a : Nat) (data : Bytes) (m : Mach) : Mach := m.hostRequest (.cxlMemWrite a data) (memWrite a data)
/-- A commit of the HDM decoder (R313). -/
def rowHdmCommit (size ways : Nat) (m : Mach) : Mach := m.hostRequest (.hdmCommit size ways) (hdmCommit size ways)
/-- Identify Memory Device (R312). -/
def rowIdentifyMemoryDevice (m : Mach) : Mach := m.hostRequest (.identifyMemoryDevice) (fun m => m.deviceAnswer msgMemoryDevice 1 [])
/-- Get Supported Logs (R312). -/
def rowGetSupportedLogs (m : Mach) : Mach := m.hostRequest (.getSupportedLogs) (fun m => m.deviceAnswer msgMemoryDevice 2 [])
/-- Get Log (R312). -/
def rowGetLog (req : Bytes) (m : Mach) : Mach := m.hostRequest (.getLog req) (fun m => m.deviceAnswer msgMemoryDevice 3 req)
/-- Get Health Info (R312). -/
def rowGetHealthInfo (m : Mach) : Mach := m.hostRequest (.getHealthInfo) (fun m => m.deviceAnswer msgMemoryDevice 4 [])
/-- Another opcode of the memory-device mailbox (R312). -/
def rowMailboxUnsupported (opcode : Nat) (m : Mach) : Mach := m.hostRequest (.mailboxUnsupported opcode) (fun m => m.emit (.mboxUnsupported opcode))
/-- DOE discovery (R312). -/
def rowDoeDiscovery (index : Nat) (m : Mach) : Mach := m.hostRequest (.doeDiscovery index) (fun m => m.deviceAnswer msgDoe 5 (toBytes 1 index))
/-- A read of the CDAT (R312). -/
def rowCdatRead (req : Bytes) (m : Mach) : Mach := m.hostRequest (.cdatRead req) (fun m => m.deviceAnswer msgDoe 6 req)

/-- A request of SPDM: over the host port as any host request, over the sideband and the links while no reset is asserted (R311, R363). -/
def overTransport (t : Transport) (i : Instr) (f : Mach → Mach) (m : Mach) : Mach :=
  match t with
  | .doe => m.hostRequest i f
  | .sideband => act f m
  | .link _ => act f m

def rowGetVersion (nv : NonVol) (t : Transport) (req : Bytes) (m : Mach) : Mach := overTransport t (.getVersion t req) (spdmRequest nv 0 t req) m
def rowGetCapabilities (nv : NonVol) (t : Transport) (req : Bytes) (m : Mach) : Mach := overTransport t (.getCapabilities t req) (spdmRequest nv 1 t req) m
def rowNegotiateAlgorithms (nv : NonVol) (t : Transport) (req : Bytes) (m : Mach) : Mach := overTransport t (.negotiateAlgorithms t req) (spdmRequest nv 2 t req) m
def rowGetDigests (nv : NonVol) (t : Transport) (req : Bytes) (m : Mach) : Mach := overTransport t (.getDigests t req) (spdmRequest nv 3 t req) m
def rowGetCertificate (nv : NonVol) (t : Transport) (req : Bytes) (m : Mach) : Mach := overTransport t (.getCertificate t req) (spdmRequest nv 4 t req) m
def rowChallenge (nv : NonVol) (t : Transport) (req : Bytes) (m : Mach) : Mach := overTransport t (.challenge t req) (spdmRequest nv 5 t req) m
def rowGetMeasurements (nv : NonVol) (t : Transport) (req : Bytes) (m : Mach) : Mach := overTransport t (.getMeasurements t req) (spdmRequest nv 6 t req) m
def rowKeyExchange (nv : NonVol) (t : Transport) (req : Bytes) (m : Mach) : Mach := overTransport t (.keyExchange t req) (spdmRequest nv 7 t req) m
def rowFinish (nv : NonVol) (t : Transport) (req : Bytes) (m : Mach) : Mach := overTransport t (.finish t req) (spdmRequest nv 8 t req) m
def rowEndSession (nv : NonVol) (t : Transport) (req : Bytes) (m : Mach) : Mach := overTransport t (.endSession t req) (spdmRequest nv 9 t req) m
def rowVendorDefinedRequest (nv : NonVol) (t : Transport) (req : Bytes) (m : Mach) : Mach := overTransport t (.vendorDefinedRequest t req) (spdmRequest nv 10 t req) m
def rowKeyagree (t : Transport) (k : KeyReq) (m : Mach) : Mach := overTransport t (.keyagree t k) (keyAgree t k) m

/-- A request that the host die made in Night or Midnight, as it is served once Day is reported (R381). -/
def hostRow (nv : NonVol) (i : Instr) (m : Mach) : Mach :=
  match i with
  | .registerWrite who off width v => rowRegisterWrite who off width v m
  | .registerReadClear who off width => rowRegisterReadClear nv who off width m
  | .globalBlockLock who => rowGlobalBlockLock who m
  | .timeNowLowRead who => rowTimeNowLowRead who m
  | .timeCtlLoad who => rowTimeCtlLoad who m
  | .timeRoleWrite who v => rowTimeRoleWrite who v m
  | .stackForgetGo who n base len => rowStackForgetGo who n base len m
  | .poolAddGo who p n first count => rowPoolAddGo who p n first count m
  | .ifillGo who n src dst count => rowIfillGo who n src dst count m
  | .coreRetire who n => rowCoreRetire who n m
  | .descriptorCreate who p => rowDescriptorCreate who p m
  | .descriptorDestroy who p target => rowDescriptorDestroy who p target m
  | .secAllocWrite who p a len v => rowSecAllocWrite who p a len v m
  | .partitionEnable who p v => rowPartitionEnable who p v m
  | .partitionSwitchGo who a b => rowPartitionSwitchGo who a b m
  | .linkRetrain who n => rowLinkRetrain who n m
  | .farPortEnable who v => rowFarPortEnable who v m
  | .faultAck who p => rowFaultAck who p m
  | .faultStopClear who mask => rowFaultStopClear who mask m
  | .retireRow who n b row => rowRetireRow who n b row m
  | .retireBank who n b => rowRetireBank who n b m
  | .retireStack who n => rowRetireStack who n m
  | .selfCheckGo who => rowSelfCheckGo who m
  | .faultInjArm who addr syms => rowFaultInjArm who addr syms m
  | .firmwareBootGo who len => rowFirmwareBootGo who len m
  | .firmwareStarted who => rowFirmwareStarted who m
  | .optionStoreWrite who offset len => rowOptionStoreWrite who offset len m
  | .weightMeasureGo who p => rowWeightMeasureGo who p m
  | .partitionSeal who p => rowPartitionSeal who p m
  | .importGo who p len => rowImportGo who p len m
  | .powerStateRequest who target => rowPowerStateRequest who target m
  | .thermNowRead who z => rowThermNowRead who z m
  | .warmResetRequest who => rowWarmResetRequest who m
  | .partitionReset who mask => rowPartitionReset who mask m
  | .unitReset who cls inst => rowUnitReset who cls inst m
  | .testModeEnter who => rowTestModeEnter who m
  | .qctlResume who p q => rowQctlResume who p q m
  | .qctlEnable who p q v => rowQctlEnable who p q v m
  | .evraise who p e => rowEvraise who p e m
  | .cxlMemRead a len => rowCxlMemRead a len m
  | .cxlMemWrite a data => rowCxlMemWrite a data m
  | .hdmCommit size ways => rowHdmCommit size ways m
  | .identifyMemoryDevice => rowIdentifyMemoryDevice m
  | .getSupportedLogs => rowGetSupportedLogs m
  | .getLog req => rowGetLog req m
  | .getHealthInfo => rowGetHealthInfo m
  | .mailboxUnsupported opcode => rowMailboxUnsupported opcode m
  | .doeDiscovery index => rowDoeDiscovery index m
  | .cdatRead req => rowCdatRead req m
  | .getVersion t req => rowGetVersion nv t req m
  | .getCapabilities t req => rowGetCapabilities nv t req m
  | .negotiateAlgorithms t req => rowNegotiateAlgorithms nv t req m
  | .getDigests t req => rowGetDigests nv t req m
  | .getCertificate t req => rowGetCertificate nv t req m
  | .challenge t req => rowChallenge nv t req m
  | .getMeasurements t req => rowGetMeasurements nv t req m
  | .keyExchange t req => rowKeyExchange nv t req m
  | .finish t req => rowFinish nv t req m
  | .endSession t req => rowEndSession nv t req m
  | .vendorDefinedRequest t req => rowVendorDefinedRequest nv t req m
  | .keyagree t k => rowKeyagree t k m
  | _ => m

/-- Day is reported at the end of the exit time, and the host accesses that waited are served in order. -/
def dayRow (nv : NonVol) (m : Mach) : Mach :=
  if m.dayDue then
    let held := m.power.hostHeld
    let m := m.reportDay
    held.foldl (fun m i => hostRow nv i m) { m with power := { m.power with hostHeld := [] } }
  else m

end Sys2Proof.Machine
end

