-- ==== Sys2Proof/Machine/Meaning.lean ====
section
/-! DEFINITION. How a meaning answers: the block's change as a next state, or a refusal where an operand names a unit the block does not have. -/
namespace Sys2Proof.Machine

/-- The command changes the block. -/
def State.does (f : Mach → Mach) (s : State) : Host.Outcome State Fault Refusal := .next (s.onMach f)

/-- The command changes the block where its operands name units that exist. -/
def State.run (ok : Bool) (f : Mach → Mach) (s : State) : Host.Outcome State Fault Refusal := if ok then .next (s.onMach f) else .refused .noSuchUnit

/-- An effect of parts that only cold reset stops: links, trips. -/
def powered (f : Mach → Mach) (m : Mach) : Mach := if m.resets.cold then m else f m

/-- The throttle flag sets; under a reset it waits for the release to count as an onset (R225). -/
def throttleOnsetAt (n : Nat) (m : Mach) : Mach := if m.awake then throttleOnset n m else m.setStack n { m.stack n with throt := true }

/-- The transport of an SPDM message exists. -/
def transportOk : Transport → Bool
  | .link n => decide (n < 16)
  | _ => true

/-- The part of a checker test exists. -/
def checkerOk : CheckerPart → Bool
  | .stack n => decide (n < 12)
  | .quad n q => decide (n < 12 ∧ q < 4)
  | .cache d => decide (d < 2)
  | .core n => decide (n < 192)
  | .hub => true

/-- sc.qrew: queue D rewinds by IMM entries (R120). -/
def CoreData.rewindQueue (d : CoreData) (w : Nat) : Except Nat CoreData :=
  let q := d.queue (wD w)
  if wImm w < 0 ∨ q.rew < (wImm w).toNat then .error fkQRewind else .ok (d.setQueue (wD w) (q.rewind (wImm w).toNat))

/-- sc.mxfmt: a pair word goes to a format slot, for the bundles after this one (R124, R128). -/
def CoreData.setFormat (d : CoreData) (w : Nat) : Except Nat CoreData :=
  let pair := (d.s (wA w)).toNat
  if pairOk pair then .ok { d with mfNext := d.mfNext ++ [(bits w 24 23, pair)] } else .error fkMxFormat

end Sys2Proof.Machine
end

