-- ==== Sys2Proof/Machine/ExecCmds.lean ====
section
/-! DEFINITION. The meanings of the command-list rows (files 04 and 10), the tick boundary and the completion of commands: one definition per command. -/
namespace Sys2Proof.Machine

/-- TICK_BOUNDARY (R30). -/
def execTickBoundary (s : State) : Host.Outcome State Fault Refusal := State.does Sys2Proof.Machine.tickBoundary s

/-- STEP_DEADLINE_MISS (R274). -/
def execStepDeadlineMiss (p : Nat) (s : State) : Host.Outcome State Fault Refusal := State.run (decide (p < 16)) (act (deadlineMiss p)) s

/-- COMMAND_COMPLETION (R101). -/
def execCommandCompletion (p q : Nat) (s : State) : Host.Outcome State Fault Refusal := State.run (decide (p < 16 ∧ q < 20)) (act (commandCompletion p q)) s

/-- NOP (R91). -/
def execNop (p q : Nat) (c : Cmd) (s : State) : Host.Outcome State Fault Refusal := State.run (decide (p < 16 ∧ q < 20)) (commandRow (fun c => c.opcode == 0) p q c) s

/-- KERNEL (R139). -/
def execKernel (p q : Nat) (c : Cmd) (s : State) : Host.Outcome State Fault Refusal := State.run (decide (p < 16 ∧ q < 20)) (commandRow (fun c => c.opcode == 1) p q c) s

/-- STACK (R201). -/
def execStack (p q : Nat) (c : Cmd) (s : State) : Host.Outcome State Fault Refusal := State.run (decide (p < 16 ∧ q < 20)) (commandRow (fun c => c.opcode == 2) p q c) s

/-- COPY (R193). -/
def execCopy (p q : Nat) (c : Cmd) (s : State) : Host.Outcome State Fault Refusal := State.run (decide (p < 16 ∧ q < 20)) (commandRow (fun c => c.opcode == 3 && !c.fill && !c.amo) p q c) s

/-- COPY_FILL (R193). -/
def execCopyFill (p q : Nat) (c : Cmd) (s : State) : Host.Outcome State Fault Refusal := State.run (decide (p < 16 ∧ q < 20)) (commandRow (fun c => c.opcode == 3 && c.fill && !c.amo) p q c) s

/-- COPY_AMO (R93). -/
def execCopyAmo (p q : Nat) (c : Cmd) (s : State) : Host.Outcome State Fault Refusal := State.run (decide (p < 16 ∧ q < 20)) (commandRow (fun c => c.opcode == 3 && c.amo) p q c) s

/-- REMOTE_WRITE (R94). -/
def execRemoteWrite (p q : Nat) (c : Cmd) (s : State) : Host.Outcome State Fault Refusal := State.run (decide (p < 16 ∧ q < 20)) (commandRow (fun c => c.opcode == 5 && !remoteRead c) p q c) s

/-- REMOTE_READ (R94). -/
def execRemoteRead (p q : Nat) (c : Cmd) (s : State) : Host.Outcome State Fault Refusal := State.run (decide (p < 16 ∧ q < 20)) (commandRow (fun c => c.opcode == 5 && remoteRead c) p q c) s

/-- SEAL (R95). -/
def execSeal (p q : Nat) (c : Cmd) (s : State) : Host.Outcome State Fault Refusal := State.run (decide (p < 16 ∧ q < 20)) (commandRow (fun c => c.opcode == 6) p q c) s

/-- WAIT (R96). -/
def execWait (p q : Nat) (c : Cmd) (s : State) : Host.Outcome State Fault Refusal := State.run (decide (p < 16 ∧ q < 20)) (commandRow (fun c => c.opcode == 7) p q c) s

/-- PATCH (R97). -/
def execPatch (p q : Nat) (c : Cmd) (s : State) : Host.Outcome State Fault Refusal := State.run (decide (p < 16 ∧ q < 20)) (commandRow (fun c => c.opcode == 8) p q c) s

/-- MARK (R99). -/
def execMark (p q : Nat) (c : Cmd) (s : State) : Host.Outcome State Fault Refusal := State.run (decide (p < 16 ∧ q < 20)) (commandRow (fun c => c.opcode == 0xE) p q c) s

/-- JUMP (R98). -/
def execJump (p q : Nat) (c : Cmd) (s : State) : Host.Outcome State Fault Refusal := State.run (decide (p < 16 ∧ q < 20)) (commandRow (fun c => c.opcode == 0xF) p q c) s

/-- FLUSH (R99). -/
def execFlush (p q : Nat) (c : Cmd) (s : State) : Host.Outcome State Fault Refusal := State.run (decide (p < 16 ∧ q < 20)) (commandRow (fun c => c.opcode == 0xB) p q c) s

/-- SAMPLE (R378). -/
def execSample (p q : Nat) (c : Cmd) (s : State) : Host.Outcome State Fault Refusal := State.run (decide (p < 16 ∧ q < 20)) (commandRow (fun c => c.opcode == 0xC) p q c) s

/-- POWER_START (R376). -/
def execPowerStart (p q : Nat) (c : Cmd) (s : State) : Host.Outcome State Fault Refusal := State.run (decide (p < 16 ∧ q < 20)) (commandRow (fun c => c.opcode == 0xD && c.p1 % 4 != 2) p q c) s

/-- POWER_STOP (R377). -/
def execPowerStop (p q : Nat) (c : Cmd) (s : State) : Host.Outcome State Fault Refusal := State.run (decide (p < 16 ∧ q < 20)) (commandRow (fun c => c.opcode == 0xD && c.p1 % 4 == 2) p q c) s

/-- DOMAIN_READY (R48). -/
def execDomainReady (d : Nat) (s : State) : Host.Outcome State Fault Refusal := State.run (decide (d < 257)) (act (domainReady d)) s

/-- BUILD (R265). -/
def execBuild (p q : Nat) (c : Cmd) (s : State) : Host.Outcome State Fault Refusal := State.run (decide (p < 16 ∧ q < 20)) (commandRow (fun c => c.opcode == 9 && seqOp c == 1) p q c) s

/-- EMIT (R270). -/
def execEmit (p q : Nat) (c : Cmd) (s : State) : Host.Outcome State Fault Refusal := State.run (decide (p < 16 ∧ q < 20)) (commandRow (fun c => c.opcode == 9 && seqOp c == 2) p q c) s

/-- ADMIT (R264). -/
def execSeqAdmit (p q : Nat) (c : Cmd) (s : State) : Host.Outcome State Fault Refusal := State.run (decide (p < 16 ∧ q < 20)) (commandRow (fun c => c.opcode == 9 && seqOp c == 3) p q c) s

/-- ACTIVATE (R264). -/
def execActivate (p q : Nat) (c : Cmd) (s : State) : Host.Outcome State Fault Refusal := State.run (decide (p < 16 ∧ q < 20)) (commandRow (fun c => c.opcode == 9 && seqOp c == 4) p q c) s

/-- HOLD (R264). -/
def execHold (p q : Nat) (c : Cmd) (s : State) : Host.Outcome State Fault Refusal := State.run (decide (p < 16 ∧ q < 20)) (commandRow (fun c => c.opcode == 9 && seqOp c == 5) p q c) s

/-- RELEASE (R264). -/
def execRelease (p q : Nat) (c : Cmd) (s : State) : Host.Outcome State Fault Refusal := State.run (decide (p < 16 ∧ q < 20)) (commandRow (fun c => c.opcode == 9 && seqOp c == 6) p q c) s

/-- PARK (R264). -/
def execPark (p q : Nat) (c : Cmd) (s : State) : Host.Outcome State Fault Refusal := State.run (decide (p < 16 ∧ q < 20)) (commandRow (fun c => c.opcode == 9 && seqOp c == 7) p q c) s

/-- RETIRE (R264). -/
def execRetire (p q : Nat) (c : Cmd) (s : State) : Host.Outcome State Fault Refusal := State.run (decide (p < 16 ∧ q < 20)) (commandRow (fun c => c.opcode == 9 && seqOp c == 8) p q c) s

/-- FREE (R264). -/
def execFree (p q : Nat) (c : Cmd) (s : State) : Host.Outcome State Fault Refusal := State.run (decide (p < 16 ∧ q < 20)) (commandRow (fun c => c.opcode == 9 && seqOp c == 9) p q c) s

/-- PEND (R264). -/
def execPend (p q : Nat) (c : Cmd) (s : State) : Host.Outcome State Fault Refusal := State.run (decide (p < 16 ∧ q < 20)) (commandRow (fun c => c.opcode == 9 && seqOp c == 10) p q c) s

/-- SHED (R264). -/
def execShed (p q : Nat) (c : Cmd) (s : State) : Host.Outcome State Fault Refusal := State.run (decide (p < 16 ∧ q < 20)) (commandRow (fun c => c.opcode == 9 && seqOp c == 11) p q c) s

/-- SETDL (R264). -/
def execSetdl (p q : Nat) (c : Cmd) (s : State) : Host.Outcome State Fault Refusal := State.run (decide (p < 16 ∧ q < 20)) (commandRow (fun c => c.opcode == 9 && seqOp c == 12) p q c) s

/-- ALLOCATE (R237). -/
def execPageAllocate (p q : Nat) (c : Cmd) (s : State) : Host.Outcome State Fault Refusal := State.run (decide (p < 16 ∧ q < 20)) (commandRow (fun c => c.opcode == 0xA && pageOp c == 1) p q c) s

/-- PAGE_FREE (R237). -/
def execPageFree (p q : Nat) (c : Cmd) (s : State) : Host.Outcome State Fault Refusal := State.run (decide (p < 16 ∧ q < 20)) (commandRow (fun c => c.opcode == 0xA && pageOp c == 2) p q c) s

/-- PAGE_FORGET (R237). -/
def execPageForget (p q : Nat) (c : Cmd) (s : State) : Host.Outcome State Fault Refusal := State.run (decide (p < 16 ∧ q < 20)) (commandRow (fun c => c.opcode == 0xA && pageOp c == 3) p q c) s

end Sys2Proof.Machine
end

