-- ==== Sys2Proof/Machine/ExecCores.lean ====
section
/-! DEFINITION. The meanings of the operations and events of the cores (file 05): one definition per command. -/
namespace Sys2Proof.Machine

/-- SC_ADD (R124). -/
def execScAdd (n : Nat) (s : State) : Host.Outcome State Fault Refusal := State.run (decide (n < 192)) (act (scalarRow n 0x01 1 (fun d w => d.s (wA w) + d.s (wB w)))) s

/-- SC_ADDI (R124). -/
def execScAddi (n : Nat) (s : State) : Host.Outcome State Fault Refusal := State.run (decide (n < 192)) (act (scalarRow n 0x02 1 (fun d w => d.s (wA w) + BitVec.ofInt 64 (wImm w)))) s

/-- SC_SUB (R124). -/
def execScSub (n : Nat) (s : State) : Host.Outcome State Fault Refusal := State.run (decide (n < 192)) (act (scalarRow n 0x03 1 (fun d w => d.s (wA w) - d.s (wB w)))) s

/-- SC_MUL (R124). -/
def execScMul (n : Nat) (s : State) : Host.Outcome State Fault Refusal := State.run (decide (n < 192)) (act (scalarRow n 0x04 3 (fun d w => d.s (wA w) * d.s (wB w)))) s

/-- SC_AND (R124). -/
def execScAnd (n : Nat) (s : State) : Host.Outcome State Fault Refusal := State.run (decide (n < 192)) (act (scalarRow n 0x05 1 (fun d w => d.s (wA w) &&& d.s (wB w)))) s

/-- SC_OR (R124). -/
def execScOr (n : Nat) (s : State) : Host.Outcome State Fault Refusal := State.run (decide (n < 192)) (act (scalarRow n 0x06 1 (fun d w => d.s (wA w) ||| d.s (wB w)))) s

/-- SC_XOR (R124). -/
def execScXor (n : Nat) (s : State) : Host.Outcome State Fault Refusal := State.run (decide (n < 192)) (act (scalarRow n 0x07 1 (fun d w => d.s (wA w) ^^^ d.s (wB w)))) s

/-- SC_SHL (R124). -/
def execScShl (n : Nat) (s : State) : Host.Outcome State Fault Refusal := State.run (decide (n < 192)) (act (scalarRow n 0x08 1 (fun d w => d.s (wA w) <<< ((d.s (wB w)).toNat % 64)))) s

/-- SC_SHR (R124). -/
def execScShr (n : Nat) (s : State) : Host.Outcome State Fault Refusal := State.run (decide (n < 192)) (act (scalarRow n 0x09 1 (fun d w => d.s (wA w) >>> ((d.s (wB w)).toNat % 64)))) s

/-- SC_SAR (R124). -/
def execScSar (n : Nat) (s : State) : Host.Outcome State Fault Refusal := State.run (decide (n < 192)) (act (scalarRow n 0x0A 1 (fun d w => (d.s (wA w)).sshiftRight ((d.s (wB w)).toNat % 64)))) s

/-- SC_LI (R124). -/
def execScLi (n : Nat) (s : State) : Host.Outcome State Fault Refusal := State.run (decide (n < 192)) (act (scalarRow n 0x0B 1 (fun _ w => BitVec.ofInt 64 (wImm w)))) s

/-- SC_LDC (R124). -/
def execScLdc (n : Nat) (s : State) : Host.Outcome State Fault Refusal := State.run (decide (n < 192)) (act (fun m => m.slotRow n 2 0x0C (fun w m => m.loadConst n w))) s

/-- SC_CMPLT (R124). -/
def execScCmplt (n : Nat) (s : State) : Host.Outcome State Fault Refusal :=
  State.run (decide (n < 192)) (act (scalarRow n 0x0D 1 (fun d w => if (d.s (wA w)).toInt < (d.s (wB w)).toInt then 1 else 0))) s

/-- SC_CMPEQ (R124). -/
def execScCmpeq (n : Nat) (s : State) : Host.Outcome State Fault Refusal := State.run (decide (n < 192)) (act (scalarRow n 0x0E 1 (fun d w => if d.s (wA w) = d.s (wB w) then 1 else 0))) s

/-- SC_BR (R126). -/
def execScBr (n : Nat) (s : State) : Host.Outcome State Fault Refusal := State.run (decide (n < 192)) (act (scalarAct n 0x10 (fun d w => .ok (d.branch (wTarget w))))) s

/-- SC_BZ (R126). -/
def execScBz (n : Nat) (s : State) : Host.Outcome State Fault Refusal := State.run (decide (n < 192)) (act (scalarAct n 0x11 (fun d w => .ok (if d.s (wA w) = 0 then d.branch (wTarget w) else d)))) s

/-- SC_BNZ (R126). -/
def execScBnz (n : Nat) (s : State) : Host.Outcome State Fault Refusal := State.run (decide (n < 192)) (act (scalarAct n 0x12 (fun d w => .ok (if d.s (wA w) = 0 then d else d.branch (wTarget w))))) s

/-- SC_LOOP (R126). -/
def execScLoop (n : Nat) (s : State) : Host.Outcome State Fault Refusal := State.run (decide (n < 192)) (act (scalarAct n 0x13 CoreData.loop)) s

/-- SC_QCFG (R116). -/
def execScQcfg (n : Nat) (s : State) : Host.Outcome State Fault Refusal :=
  State.run (decide (n < 192)) (act (scalarAct n 0x18 (fun d w => (d.qcfg (wD w) (d.s (wA w)).toNat).elim (.error fkQCfg) .ok))) s

/-- SC_QREW (R120). -/
def execScQrew (n : Nat) (s : State) : Host.Outcome State Fault Refusal := State.run (decide (n < 192)) (act (scalarAct n 0x19 CoreData.rewindQueue)) s

/-- SC_MYID (R124). -/
def execScMyid (n : Nat) (s : State) : Host.Outcome State Fault Refusal :=
  State.run (decide (n < 192)) (act (fun m => m.slotRow n 2 0x1A (fun w m => let c := m.core n; .done (m.setD n (c.d.result c.cycle 1 (wD w) (BitVec.ofNat 64 (m.myId n))))))) s

/-- SC_PEER (R124). -/
def execScPeer (n : Nat) (s : State) : Host.Outcome State Fault Refusal :=
  State.run (decide (n < 192)) (act (fun m => m.slotRow n 2 0x1B (fun w m => let c := m.core n; .done (m.setD n (c.d.result c.cycle 1 (wD w) (BitVec.ofNat 64 ((m.physOf ((c.d.s (wA w)).toNat % 256)).getD 0xFF))))))) s

/-- SC_SETPROG (R140). -/
def execScSetprog (n : Nat) (s : State) : Host.Outcome State Fault Refusal := State.run (decide (n < 192)) (act (scalarAct n 0x1C (fun d w => .ok { d with prog := (d.s (wA w)).toNat % 2 ^ 48 }))) s

/-- SC_IFILL (R145). -/
def execScIfill (n : Nat) (s : State) : Host.Outcome State Fault Refusal := State.run (decide (n < 192)) (act (scalarAct n 0x1D CoreData.startFill)) s

/-- SC_MXFMT (R128). -/
def execScMxfmt (n : Nat) (s : State) : Host.Outcome State Fault Refusal := State.run (decide (n < 192)) (act (scalarAct n 0x1E CoreData.setFormat)) s

/-- SC_AMO (R127). -/
def execScAmo (n : Nat) (s : State) : Host.Outcome State Fault Refusal := State.run (decide (n < 192)) (act (amoRow n)) s

/-- AMO_COMPLETE (R127). -/
def execAmoComplete (n : Nat) (s : State) : Host.Outcome State Fault Refusal := State.run (decide (n < 192)) (act (amoComplete n)) s

/-- VX_ADD (R133). -/
def execVxAdd (n : Nat) (s : State) : Host.Outcome State Fault Refusal := State.run (decide (n < 192)) (act (vecRow n 0x01)) s

/-- VX_SUB (R133). -/
def execVxSub (n : Nat) (s : State) : Host.Outcome State Fault Refusal := State.run (decide (n < 192)) (act (vecRow n 0x02)) s

/-- VX_MUL (R133). -/
def execVxMul (n : Nat) (s : State) : Host.Outcome State Fault Refusal := State.run (decide (n < 192)) (act (vecRow n 0x03)) s

/-- VX_FMA (R133). -/
def execVxFma (n : Nat) (s : State) : Host.Outcome State Fault Refusal := State.run (decide (n < 192)) (act (vecRow n 0x04)) s

/-- VX_MAX (R133). -/
def execVxMax (n : Nat) (s : State) : Host.Outcome State Fault Refusal := State.run (decide (n < 192)) (act (vecRow n 0x05)) s

/-- VX_MIN (R133). -/
def execVxMin (n : Nat) (s : State) : Host.Outcome State Fault Refusal := State.run (decide (n < 192)) (act (vecRow n 0x06)) s

/-- VX_EXP (R165). -/
def execVxExp (n : Nat) (s : State) : Host.Outcome State Fault Refusal := State.run (decide (n < 192)) (act (vecRow n 0x08)) s

/-- VX_RCP (R165). -/
def execVxRcp (n : Nat) (s : State) : Host.Outcome State Fault Refusal := State.run (decide (n < 192)) (act (vecRow n 0x09)) s

/-- VX_RSQRT (R165). -/
def execVxRsqrt (n : Nat) (s : State) : Host.Outcome State Fault Refusal := State.run (decide (n < 192)) (act (vecRow n 0x0A)) s

/-- VX_RSUM (R165). -/
def execVxRsum (n : Nat) (s : State) : Host.Outcome State Fault Refusal := State.run (decide (n < 192)) (act (vecRow n 0x10)) s

/-- VX_RMAX (R165). -/
def execVxRmax (n : Nat) (s : State) : Host.Outcome State Fault Refusal := State.run (decide (n < 192)) (act (vecRow n 0x11)) s

/-- VX_GATHER (R133). -/
def execVxGather (n : Nat) (s : State) : Host.Outcome State Fault Refusal := State.run (decide (n < 192)) (act (vecRow n 0x18)) s

/-- VX_CVT (R166). -/
def execVxCvt (n : Nat) (s : State) : Host.Outcome State Fault Refusal := State.run (decide (n < 192)) (act (vecRow n 0x20)) s

/-- VX_SCAL (R133). -/
def execVxScal (n : Nat) (s : State) : Host.Outcome State Fault Refusal := State.run (decide (n < 192)) (act (vecRow n 0x21)) s

/-- VX_BCAST (R133). -/
def execVxBcast (n : Nat) (s : State) : Host.Outcome State Fault Refusal := State.run (decide (n < 192)) (act (vecRow n 0x22)) s

/-- VX_CMP (R133). -/
def execVxCmp (n : Nat) (s : State) : Host.Outcome State Fault Refusal := State.run (decide (n < 192)) (act (vecRow n 0x28)) s

/-- VX_SEL (R133). -/
def execVxSel (n : Nat) (s : State) : Host.Outcome State Fault Refusal := State.run (decide (n < 192)) (act (vecRow n 0x29)) s

/-- VECTOR_TOKEN_SET (R118). -/
def execVectorTokenSet (n : Nat) (s : State) : Host.Outcome State Fault Refusal := State.run (decide (n < 192)) (act (vectorToken n)) s

/-- MX_MMA (R130). -/
def execMxMma (n : Nat) (s : State) : Host.Outcome State Fault Refusal := State.run (decide (n < 192)) (act (fun m => m.slotRow n 4 0x01 (fun w m => m.mmaAct n w))) s

/-- MMA_COMPLETE (R130). -/
def execMmaComplete (n : Nat) (s : State) : Host.Outcome State Fault Refusal := State.run (decide (n < 192)) (act (mmaComplete n)) s

/-- MX_DRAIN (R131). -/
def execMxDrain (n : Nat) (s : State) : Host.Outcome State Fault Refusal :=
  State.run (decide (n < 192)) (act (fun m => m.slotRow n 4 0x02 (fun w m => match (m.coreD n).issueDrain w with | .ok d => .done (m.setD n d) | .error e => .trap e))) s

/-- DRAIN_START (R131). -/
def execDrainStart (n : Nat) (v : Verdict) (s : State) : Host.Outcome State Fault Refusal := State.run (decide (n < 192)) (act (drainStart n v)) s

/-- DRAIN_ROW_PUSH (R131). -/
def execDrainRowPush (n : Nat) (s : State) : Host.Outcome State Fault Refusal := State.run (decide (n < 192)) (act (drainRowPush n)) s

/-- LD_TILE (R134). -/
def execLdTile (n : Nat) (s : State) : Host.Outcome State Fault Refusal := State.run (decide (n < 192)) (act (fun m => m.slotRow n 5 0x01 (fun w m => m.loadAct n w))) s

/-- LOAD_ENTRY_READY (R136). -/
def execLoadEntryReady (n q : Nat) (s : State) : Host.Outcome State Fault Refusal := State.run (decide (n < 192 ∧ q < 32)) (act (loadEntryReady n q)) s

/-- ST_TILE (R134). -/
def execStTile (n : Nat) (s : State) : Host.Outcome State Fault Refusal := State.run (decide (n < 192)) (act (fun m => m.slotRow n 6 0x01 (fun w m => m.storeAct n w))) s

/-- STORE_COMPLETE (R137). -/
def execStoreComplete (n : Nat) (s : State) : Host.Outcome State Fault Refusal := State.run (decide (n < 192)) (act (storeComplete n)) s

/-- SY_AWAIT (R138). -/
def execSyAwait (n : Nat) (s : State) : Host.Outcome State Fault Refusal := State.run (decide (n < 192)) (act (syncRow n 0x01 (fun c w => (c.d.queue (wX w)).firstReady (wN w)))) s

/-- SY_SPACE (R138). -/
def execSySpace (n : Nat) (s : State) : Host.Outcome State Fault Refusal := State.run (decide (n < 192)) (act (syncRow n 0x02 (fun c w => decide (wN w ≤ (c.d.queue (wX w)).free)))) s

/-- SY_STW (R138). -/
def execSyStw (n : Nat) (s : State) : Host.Outcome State Fault Refusal :=
  State.run (decide (n < 192)) (act (syncRow n 0x03 (fun c w => decide ((c.d.stores.filter (fun x => x.ctr == wX w % 8)).length ≤ wN w)))) s

/-- SY_LDW (R138). -/
def execSyLdw (n : Nat) (s : State) : Host.Outcome State Fault Refusal := State.run (decide (n < 192)) (act (syncRow n 0x04 (fun c w => decide (c.d.loads.length ≤ wN w)))) s

/-- SY_MX (R138). -/
def execSyMx (n : Nat) (s : State) : Host.Outcome State Fault Refusal := State.run (decide (n < 192)) (act (syncRow n 0x05 (fun c _ => c.d.macWait.isNone))) s

/-- SY_DR (R138). -/
def execSyDr (n : Nat) (s : State) : Host.Outcome State Fault Refusal := State.run (decide (n < 192)) (act (syncRow n 0x06 (fun c _ => c.d.drainWait.isNone))) s

/-- SY_IFILL (R138). -/
def execSyIfill (n : Nat) (s : State) : Host.Outcome State Fault Refusal := State.run (decide (n < 192)) (act (syncRow n 0x07 (fun c _ => c.d.ifill.isEmpty))) s

/-- SY_BAR (R138). -/
def execSyBar (n : Nat) (s : State) : Host.Outcome State Fault Refusal := State.run (decide (n < 192)) (act (fun m => m.slotRow n 1 0x08 (fun w m => m.barAct n w))) s

/-- BARRIER_RELEASE (R138). -/
def execBarrierRelease (p g : Nat) (s : State) : Host.Outcome State Fault Refusal := State.run (decide (p < 16 ∧ g < 4)) (act (barrierRelease p g)) s

/-- SY_CYC (R138). -/
def execSyCyc (n : Nat) (s : State) : Host.Outcome State Fault Refusal := State.run (decide (n < 192)) (act (syncRow n 0x09 (fun c w => decide (wN w ≤ c.cycle - c.syncFrom)))) s

/-- SY_SWPT (R144). -/
def execSySwpt (n : Nat) (s : State) : Host.Outcome State Fault Refusal := State.run (decide (n < 192)) (act (fun m => m.slotRow n 1 0x0A (fun _ m => m.swptAct n))) s

/-- SY_END (R140). -/
def execSyEnd (n : Nat) (s : State) : Host.Outcome State Fault Refusal := State.run (decide (n < 192)) (act (fun m => m.slotRow n 1 0x0B (fun w m => m.endAct n w))) s

/-- SY_IDLE (R138). -/
def execSyIdle (n : Nat) (s : State) : Host.Outcome State Fault Refusal := State.run (decide (n < 192)) (act (syncRow n 0x0C (fun c _ => c.d.unitsIdle))) s

/-- SY_AMO (R138). -/
def execSyAmo (n : Nat) (s : State) : Host.Outcome State Fault Refusal := State.run (decide (n < 192)) (act (syncRow n 0x0D (fun c _ => c.d.amo.isNone))) s

/-- GROUP_STOP (R141). -/
def execGroupStop (p g : Nat) (s : State) : Host.Outcome State Fault Refusal := State.run (decide (p < 16 ∧ g < 4)) (act (groupStop p g)) s

/-- WATCHDOG_EXPIRY (R143). -/
def execWatchdogExpiry (n : Nat) (s : State) : Host.Outcome State Fault Refusal := State.run (decide (n < 192)) (act (watchdogExpiry n)) s

/-- IFILL_GO (R145). -/
def execIfillGo (who : Requester) (n src dst count : Nat) (s : State) : Host.Outcome State Fault Refusal := State.run (decide (n < 192)) (rowIfillGo who n src dst count) s

/-- IFILL_DONE (R145). -/
def execIfillDone (n : Nat) (s : State) : Host.Outcome State Fault Refusal := State.run (decide (n < 192)) (act (ifillDone n)) s

/-- CORE_RETIRE (R149). -/
def execCoreRetire (who : Requester) (n : Nat) (s : State) : Host.Outcome State Fault Refusal := State.run (decide (n < 192)) (rowCoreRetire who n) s

/-- SCALAR_RESULT_WRITE (R125). -/
def execScalarResultWrite (n : Nat) (s : State) : Host.Outcome State Fault Refusal := State.run (decide (n < 192)) (act (scalarResult n)) s

end Sys2Proof.Machine
end

