-- ==== Sys2Proof/Machine/ExecFaults.lean ====
section
/-! DEFINITION. The meanings of the fault hub (file 13): one definition per command. -/
namespace Sys2Proof.Machine

/-- LOCKSTEP_MISMATCH (R351). -/
def execLockstepMismatch (s : State) : Host.Outcome State Fault Refusal := State.does (act Sys2Proof.Machine.lockstepMismatch) s

/-- MC_LOCKSTEP_MISMATCH (R351). -/
def execMcLockstepMismatch (k : Nat) (s : State) : Host.Outcome State Fault Refusal := State.run (decide (k < 2)) (act (mcMismatch k)) s

/-- SEAM_CRC_ERROR (R353). -/
def execSeamCrcError (dir : Nat) (s : State) : Host.Outcome State Fault Refusal := State.run (decide (dir < 2)) (act (seamCrc dir)) s

/-- FAULT_ACK (R346). -/
def execFaultAck (who : Requester) (p : Nat) (s : State) : Host.Outcome State Fault Refusal := State.run (decide (p < 16)) (rowFaultAck who p) s

/-- FAULT_STOP_CLEAR (R348). -/
def execFaultStopClear (who : Requester) (mask : Nat) (s : State) : Host.Outcome State Fault Refusal := State.does (rowFaultStopClear who mask) s

/-- RETIRE_ROW (R337). -/
def execRetireRow (who : Requester) (n b row : Nat) (s : State) : Host.Outcome State Fault Refusal := State.run (decide (n < 12 ∧ b < 512 ∧ row < 32768)) (rowRetireRow who n b row) s

/-- ROW_COPY_SLOT (R337). -/
def execRowCopySlot (s : State) : Host.Outcome State Fault Refusal := State.does (act Sys2Proof.Machine.rowCopySlot) s

/-- RETIRE_BANK (R338). -/
def execRetireBank (who : Requester) (n b : Nat) (s : State) : Host.Outcome State Fault Refusal := State.run (decide (n < 12 ∧ b < 512)) (rowRetireBank who n b) s

/-- RETIRE_STACK (R338). -/
def execRetireStack (who : Requester) (n : Nat) (s : State) : Host.Outcome State Fault Refusal := State.run (decide (n < 12)) (rowRetireStack who n) s

/-- SELF_CHECK_GO (R343). -/
def execSelfCheckGo (who : Requester) (s : State) : Host.Outcome State Fault Refusal := State.does (rowSelfCheckGo who) s

/-- SELF_CHECK_DONE (R343). -/
def execSelfCheckDone (failed : List CheckerPart) (s : State) : Host.Outcome State Fault Refusal := State.run (failed.all checkerOk) (act (selfCheckDone failed)) s

/-- DIAG_TEST (R341). -/
def execDiagTest (failed : List CheckerPart) (s : State) : Host.Outcome State Fault Refusal := State.run (failed.all checkerOk) (act (diagTest failed)) s

/-- FAULT_INJ_ARM (R355). -/
def execFaultInjArm (who : Requester) (addr syms : Nat) (s : State) : Host.Outcome State Fault Refusal := State.does (rowFaultInjArm who addr syms) s

end Sys2Proof.Machine
end

