-- ==== Sys2Proof/Machine/ExecHost.lean ====
section
/-! DEFINITION. The meanings of the host port, the sideband, the mailboxes and the far tier (file 12): one definition per command. -/
namespace Sys2Proof.Machine

/-- CXL_MEM_READ (R314). -/
def execCxlMemRead (a len : Nat) (s : State) : Host.Outcome State Fault Refusal := State.does (rowCxlMemRead a len) s

/-- CXL_MEM_WRITE (R314). -/
def execCxlMemWrite (a : Nat) (data : Bytes) (s : State) : Host.Outcome State Fault Refusal := State.does (rowCxlMemWrite a data) s

/-- HDM_COMMIT (R313). -/
def execHdmCommit (size ways : Nat) (s : State) : Host.Outcome State Fault Refusal := State.does (rowHdmCommit size ways) s

/-- UCIE_MODULE_FAIL (R309). -/
def execUcieModuleFail (k : Nat) (s : State) : Host.Outcome State Fault Refusal := State.run (decide (k < 4)) (act (ucieModuleFail k)) s

/-- SIDEBAND_IDENTITY (R311). -/
def execSidebandIdentity (s : State) : Host.Outcome State Fault Refusal := State.does Sys2Proof.Machine.sidebandIdentity s

/-- SIDEBAND_TEMPERATURE (R387). -/
def execSidebandTemperature (s : State) : Host.Outcome State Fault Refusal := State.does Sys2Proof.Machine.sidebandTemperature s

/-- MAILBOX_WRITE (R311). -/
def execMailboxWrite (data : Bytes) (s : State) : Host.Outcome State Fault Refusal := State.does (Sys2Proof.Machine.mailboxWrite data) s

/-- MAILBOX_READ (R311). -/
def execMailboxRead (s : State) : Host.Outcome State Fault Refusal := State.does Sys2Proof.Machine.mailboxRead s

/-- IDENTIFY_MEMORY_DEVICE (R312). -/
def execIdentifyMemoryDevice (s : State) : Host.Outcome State Fault Refusal := State.does rowIdentifyMemoryDevice s

/-- GET_SUPPORTED_LOGS (R312). -/
def execGetSupportedLogs (s : State) : Host.Outcome State Fault Refusal := State.does rowGetSupportedLogs s

/-- GET_LOG (R312). -/
def execGetLog (req : Bytes) (s : State) : Host.Outcome State Fault Refusal := State.does (rowGetLog req) s

/-- GET_HEALTH_INFO (R312). -/
def execGetHealthInfo (s : State) : Host.Outcome State Fault Refusal := State.does rowGetHealthInfo s

/-- MAILBOX_UNSUPPORTED (R312). -/
def execMailboxUnsupported (opcode : Nat) (s : State) : Host.Outcome State Fault Refusal := State.does (rowMailboxUnsupported opcode) s

/-- DOE_DISCOVERY (R312). -/
def execDoeDiscovery (index : Nat) (s : State) : Host.Outcome State Fault Refusal := State.does (rowDoeDiscovery index) s

/-- CDAT_READ (R312). -/
def execCdatRead (req : Bytes) (s : State) : Host.Outcome State Fault Refusal := State.does (rowCdatRead req) s

/-- FAR_PORT_ENABLE (R320). -/
def execFarPortEnable (who : Requester) (v : Nat) (s : State) : Host.Outcome State Fault Refusal := State.does (rowFarPortEnable who v) s

/-- FAR_PORT_UP (R320). -/
def execFarPortUp (es : List FarExpander) (s : State) : Host.Outcome State Fault Refusal := State.does (act (farPortUp es)) s

/-- FAR_ACCESS_COMPLETE (R322). -/
def execFarAccessComplete (slot : Nat) (poison : Bool) (s : State) : Host.Outcome State Fault Refusal := State.does (act (farComplete slot poison)) s

/-- FAR_ACCESS_TIMEOUT (R323). -/
def execFarAccessTimeout (slot : Nat) (s : State) : Host.Outcome State Fault Refusal := State.does (act (farTimeout slot)) s

/-- FAR_LINK_DOWN (R323). -/
def execFarLinkDown (e : Nat) (sent : List Nat) (s : State) : Host.Outcome State Fault Refusal := State.run (decide (e < 4)) (act (farLinkDown e sent)) s

/-- UCIE_TRAINING_DONE (R309). -/
def execUcieTrainingDone (mods : List (Option (Bool × Nat))) (flit : Bool) (s : State) : Host.Outcome State Fault Refusal := State.does (act (ucieTrained mods flit)) s

/-- LINK_LEVEL_RETRY (R310). -/
def execLinkLevelRetry (s : State) : Host.Outcome State Fault Refusal := State.does (act Sys2Proof.Machine.linkLevelRetry) s

end Sys2Proof.Machine
end

