-- ==== Sys2Proof/Machine/ExecLinks.lean ====
section
/-! DEFINITION. The meanings of frames, ports and timers of the Vyter links (file 11): one definition per command. -/
namespace Sys2Proof.Machine

/-- WRITE_FRAME (R293). -/
def execWriteFrame (n : Nat) (f : Frame) (s : State) : Host.Outcome State Fault Refusal := State.run (decide (n < 16)) (fun m => m.arrive n { f with typ := 0x10 } (landWrite n)) s

/-- SEAL_FRAME (R72). -/
def execSealFrame (n : Nat) (f : Frame) (s : State) : Host.Outcome State Fault Refusal := State.run (decide (n < 16)) (fun m => m.arrive n { f with typ := 0x11 } (landSealFrame n)) s

/-- SEAL_HOLD_EXPIRY (R74). -/
def execSealHoldExpiry (src p x : Nat) (s : State) : Host.Outcome State Fault Refusal := State.run (decide (src < 1024 ∧ p < 16 ∧ x < 65536)) (act (sealHoldExpiry src p x)) s

/-- TRANSFER_CLOSE_EXPIRY (R74). -/
def execTransferCloseExpiry (src p x : Nat) (s : State) : Host.Outcome State Fault Refusal := State.run (decide (src < 1024 ∧ p < 16 ∧ x < 65536)) (act (transferRelease src p x)) s

/-- READREQ_FRAME (R293). -/
def execReadreqFrame (n : Nat) (f : Frame) (s : State) : Host.Outcome State Fault Refusal := State.run (decide (n < 16)) (fun m => m.arrive n { f with typ := 0x12 } (fun f _ => serveRead n f)) s

/-- READREP_FRAME (R294). -/
def execReadrepFrame (n : Nat) (f : Frame) (s : State) : Host.Outcome State Fault Refusal := State.run (decide (n < 16)) (fun m => m.arrive n { f with typ := 0x13 } landReadRep) s

/-- ATOMREQ_FRAME (R79). -/
def execAtomreqFrame (n : Nat) (f : Frame) (s : State) : Host.Outcome State Fault Refusal := State.run (decide (n < 16)) (fun m => m.arrive n { f with typ := 0x14 } (serveAtomic n)) s

/-- ATOMREP_FRAME (R293). -/
def execAtomrepFrame (n : Nat) (f : Frame) (s : State) : Host.Outcome State Fault Refusal := State.run (decide (n < 16)) (fun m => m.arrive n { f with typ := 0x15 } landAtomRep) s

/-- REPLY_LIMIT_EXPIRY (R295). -/
def execReplyLimitExpiry (p q : Nat) (s : State) : Host.Outcome State Fault Refusal := State.run (decide (p < 16 ∧ q < 20)) (act (replyLimit p q)) s

/-- UNKNOWN_FRAME (R288). -/
def execUnknownFrame (n : Nat) (s : State) : Host.Outcome State Fault Refusal := State.run (decide (n < 16)) (act (unknownFrame n)) s

/-- TRAIN_FRAME (R301). -/
def execTrainFrame (n : Nat) (dark : Bool) (s : State) : Host.Outcome State Fault Refusal := State.run (decide (n < 16)) (trainFrame n dark) s

/-- SYNC_FRAME (R298). -/
def execSyncFrame (n gm dist sender sub : Nat) (s : State) : Host.Outcome State Fault Refusal := State.run (decide (n < 16)) (act (syncFrame n gm dist sender sub)) s

/-- SYNC_SEND_TIMER (R298). -/
def execSyncSendTimer (s : State) : Host.Outcome State Fault Refusal := State.does (act syncSend) s

/-- SYNC_SILENCE_TIMEOUT (R25). -/
def execSyncSilenceTimeout (s : State) : Host.Outcome State Fault Refusal := State.does (act syncSilence) s

/-- HOLDOVER_TIMEOUT (R25). -/
def execHoldoverTimeout (s : State) : Host.Outcome State Fault Refusal := State.does (act Sys2Proof.Machine.holdoverTimeout) s

/-- STOP_FRAME (R302). -/
def execStopFrame (n src mask : Nat) (s : State) : Host.Outcome State Fault Refusal := State.run (decide (n < 16)) (act (stopFrame n src mask)) s

/-- START_FRAME (R302). -/
def execStartFrame (n src mask : Nat) (s : State) : Host.Outcome State Fault Refusal := State.run (decide (n < 16)) (act (startFrame n src mask)) s

/-- DIGEST_FRAME (R304). -/
def execDigestFrame (n : Nat) (f : Frame) (s : State) : Host.Outcome State Fault Refusal := State.run (decide (n < 16)) (act (digestFrame n { f with typ := 0x20 })) s

/-- CHECK_FRAME (R305). -/
def execCheckFrame (n : Nat) (f : Frame) (s : State) : Host.Outcome State Fault Refusal := State.run (decide (n < 16)) (act (checkFrame n { f with typ := 0x21 })) s

/-- FENCE_FRAME (R305). -/
def execFenceFrame (x : Nat × Frame) (s : State) : Host.Outcome State Fault Refusal := State.run (decide (x.1 < 16)) (act (fenceFrame x.1 { x.2 with typ := 0x22 })) s

/-- DIGEST_READY (R304). -/
def execDigestReady (s : State) : Host.Outcome State Fault Refusal := State.does (act Sys2Proof.Machine.digestReady) s

/-- PAIR_WAIT_EXPIRY (R304). -/
def execPairWaitExpiry (s : State) : Host.Outcome State Fault Refusal := State.does (act Sys2Proof.Machine.pairWaitExpiry) s

/-- PAIR_GRACE_EXPIRY (R305). -/
def execPairGraceExpiry (s : State) : Host.Outcome State Fault Refusal := State.does (act Sys2Proof.Machine.pairGraceExpiry) s

/-- OUTPUT_PORT_SEND (R292). -/
def execOutputPortSend (n : Nat) (s : State) : Host.Outcome State Fault Refusal := State.run (decide (n < 16)) (portSend n) s

/-- LINK_SIGNAL_LOSS (R300). -/
def execLinkSignalLoss (n : Nat) (s : State) : Host.Outcome State Fault Refusal := State.run (decide (n < 16)) (powered (signalLoss n)) s

/-- LINK_FEC_FAIL (R300). -/
def execLinkFecFail (n : Nat) (hdr : Option Frame) (s : State) : Host.Outcome State Fault Refusal := State.run (decide (n < 16)) (powered (fecFail n hdr)) s

/-- LINK_RETRAIN_TIMER (R300). -/
def execLinkRetrainTimer (n : Nat) (s : State) : Host.Outcome State Fault Refusal := State.run (decide (n < 16)) (powered (retrainTimer n)) s

/-- LINK_RETRAIN (R308). -/
def execLinkRetrain (who : Requester) (n : Nat) (s : State) : Host.Outcome State Fault Refusal := State.run (decide (n < 16)) (rowLinkRetrain who n) s

/-- LINK_TRAINING_DONE (R286). -/
def execLinkTrainingDone (n : Nat) (t : Training) (s : State) : Host.Outcome State Fault Refusal := State.run (decide (n < 16)) (powered (trainingDone n t)) s

/-- PLUG_REMOVAL (R419). -/
def execPlugRemoval (n : Nat) (s : State) : Host.Outcome State Fault Refusal := State.run (decide (n < 16)) (plugRemoved n) s

/-- PLUG_INSERTION (R419). -/
def execPlugInsertion (n : Nat) (s : State) : Host.Outcome State Fault Refusal := State.run (decide (n < 16)) (plugInserted n) s

end Sys2Proof.Machine
end

