-- ==== Sys2Proof/Machine/ExecParts.lean ====
section
/-! DEFINITION. The meanings of descriptors, allocations and partitions (files 07 and 10): one definition per command. -/
namespace Sys2Proof.Machine

/-- DESCRIPTOR_CREATE (R176). -/
def execDescriptorCreate (who : Requester) (p : Nat) (s : State) : Host.Outcome State Fault Refusal := State.run (decide (p < 16)) (rowDescriptorCreate who p) s

/-- DESCRIPTOR_VALIDATION_DONE (R184). -/
def execDescriptorValidationDone (p : Nat) (s : State) : Host.Outcome State Fault Refusal := State.run (decide (p < 16)) (act (descValidated p)) s

/-- DESCRIPTOR_DESTROY (R177). -/
def execDescriptorDestroy (who : Requester) (p target : Nat) (s : State) : Host.Outcome State Fault Refusal := State.run (decide (p < 16)) (rowDescriptorDestroy who p target) s

/-- DESCRIPTOR_DRAIN_DONE (R177). -/
def execDescriptorDrainDone (p k : Nat) (s : State) : Host.Outcome State Fault Refusal := State.run (decide (p < 16 ∧ k < 4096)) (act (descDrainDone p k)) s

/-- SEC_ALLOC_WRITE (R173). -/
def execSecAllocWrite (who : Requester) (p a : Nat) (len : Bool) (v : Nat) (s : State) : Host.Outcome State Fault Refusal := State.run (decide (p < 16 ∧ a < 256)) (rowSecAllocWrite who p a len v) s

/-- PARTITION_ENABLE (R257). -/
def execPartitionEnable (who : Requester) (p v : Nat) (s : State) : Host.Outcome State Fault Refusal := State.run (decide (p < 16)) (rowPartitionEnable who p v) s

/-- PARTITION_SWITCH_GO (R278). -/
def execPartitionSwitchGo (who : Requester) (a b : Nat) (s : State) : Host.Outcome State Fault Refusal := State.run (decide (a < 16 ∧ b < 16)) (rowPartitionSwitchGo who a b) s

/-- SWITCH_PHASE_COMPLETE (R280). -/
def execSwitchPhaseComplete (s : State) : Host.Outcome State Fault Refusal := State.does (act (fun m => (switchPhase m).runWaitingResets)) s

/-- SWITCH_DRAIN_FORCE (R279). -/
def execSwitchDrainForce (n : Nat) (s : State) : Host.Outcome State Fault Refusal := State.run (decide (n < 192)) (act (drainForce n)) s

end Sys2Proof.Machine
end

