-- ==== Sys2Proof/Machine/ExecPower.lean ====
section
/-! DEFINITION. The meanings of device states, Dawn, conversions, trips and the guard (file 15): one definition per command. -/
namespace Sys2Proof.Machine

/-- POWER_STATE_REQUEST (R381). -/
def execPowerStateRequest (who : Requester) (target : Nat) (s : State) : Host.Outcome State Fault Refusal := State.does (rowPowerStateRequest who target) s

/-- STATE_ENTRY_DONE (R379). -/
def execStateEntryDone (s : State) : Host.Outcome State Fault Refusal := State.does (act Sys2Proof.Machine.stateEntryDone) s

/-- WAKE_PIN (R381). -/
def execWakePin (s : State) : Host.Outcome State Fault Refusal := State.does (act Sys2Proof.Machine.wakePin) s

/-- WAKE_TIMER (R381). -/
def execWakeTimer (s : State) : Host.Outcome State Fault Refusal := State.does (act Sys2Proof.Machine.wakeTimer) s

/-- HOST_WAKE_REQUEST (R381). -/
def execHostWakeRequest (s : State) : Host.Outcome State Fault Refusal := State.does (act hostWake) s

/-- DAWN_STAGE_READY (R383). -/
def execDawnStageReady (tag : Verdict) (s : State) : Host.Outcome State Fault Refusal := State.does (act (dawnReady tag)) s

/-- DAWN_STAGE_TIMEOUT (R383). -/
def execDawnStageTimeout (s : State) : Host.Outcome State Fault Refusal := State.does (act dawnTimeout) s

/-- DAY_REACHED (R379). -/
def execDayReached (s : State) : Host.Outcome State Fault Refusal := State.does (act (dayRow s.nv)) s

/-- POWER_GUARD_SAMPLE (R391). -/
def execPowerGuardSample (watts : Nat) (s : State) : Host.Outcome State Fault Refusal := State.does (act (guardSample watts)) s

/-- THERM_NOW_READ (R387). -/
def execThermNowRead (who : Requester) (z : Nat) (s : State) : Host.Outcome State Fault Refusal := State.run (decide (z < 24)) (rowThermNowRead who z) s

/-- CONVERSION_DONE (R387). -/
def execConversionDone (readings : List Int) (s : State) : Host.Outcome State Fault Refusal := State.does (powered (conversionDone readings)) s

/-- DIE_TRIP (R389). -/
def execDieTrip (d : Nat) (s : State) : Host.Outcome State Fault Refusal := State.run (decide (d < 2)) (powered (dieTrip d)) s

/-- DRAM_TRIP (R389). -/
def execDramTrip (n : Nat) (s : State) : Host.Outcome State Fault Refusal := State.run (decide (n < 12)) (powered (dramTrip n)) s

/-- RAIL_FAIL (R392). -/
def execRailFail (k : Nat) (s : State) : Host.Outcome State Fault Refusal := State.run (decide (k < 6)) (act (railFail k)) s

/-- PLL_LOCK_LOSS (R392). -/
def execPllLockLoss (d : Nat) (s : State) : Host.Outcome State Fault Refusal := State.run (decide (d < 2)) (act (pllLoss d)) s

end Sys2Proof.Machine
end

