-- ==== Sys2Proof/Machine/ExecRegs.lean ====
section
/-! DEFINITION. The meanings of register rows, events of the tick, and queue control: one definition per command. -/
namespace Sys2Proof.Machine

/-- REGISTER_WRITE (R12); of SEC_ARB it also advances the fuses (R357). -/
def execRegisterWrite (who : Requester) (off width v : Nat) (s : State) : Host.Outcome State Fault Refusal :=
  .next
    { s.onMach (rowRegisterWrite who off width v) with
      nv := if accessOk off width ∧ off = arbOffset then s.nv.advanceBy s.m who (bits v 23 16) else s.nv }

/-- REGISTER_READ_CLEAR (R5). -/
def execRegisterReadClear (who : Requester) (off width : Nat) (s : State) : Host.Outcome State Fault Refusal := State.does (rowRegisterReadClear s.nv who off width) s

/-- GLOBAL_BLOCK_LOCK (R13). -/
def execGlobalBlockLock (who : Requester) (s : State) : Host.Outcome State Fault Refusal := State.does (rowGlobalBlockLock who) s

/-- TIME_NOW_LOW_READ (R29). -/
def execTimeNowLowRead (who : Requester) (s : State) : Host.Outcome State Fault Refusal := State.does (rowTimeNowLowRead who) s

/-- TIME_CTL_LOAD (R27). -/
def execTimeCtlLoad (who : Requester) (s : State) : Host.Outcome State Fault Refusal := State.does (rowTimeCtlLoad who) s

/-- TIME_ROLE_WRITE (R26). -/
def execTimeRoleWrite (who : Requester) (v : Nat) (s : State) : Host.Outcome State Fault Refusal := State.does (rowTimeRoleWrite who v) s

/-- QCTL_RESUME (R104). -/
def execQctlResume (who : Requester) (p q : Nat) (s : State) : Host.Outcome State Fault Refusal := State.run (decide (p < 16 ∧ q < 20)) (rowQctlResume who p q) s

/-- QCTL_ENABLE (R108). -/
def execQctlEnable (who : Requester) (p q v : Nat) (s : State) : Host.Outcome State Fault Refusal := State.run (decide (p < 16 ∧ q < 20)) (rowQctlEnable who p q v) s

/-- EVRAISE (R89). -/
def execEvraise (who : Requester) (p e : Nat) (s : State) : Host.Outcome State Fault Refusal := State.run (decide (p < 16 ∧ e < 256)) (rowEvraise who p e) s

end Sys2Proof.Machine
end

