-- ==== Sys2Proof/Machine/ExecReset.lean ====
section
/-! DEFINITION. The meanings of resets and test mode (file 16): one definition per command. -/
namespace Sys2Proof.Machine

/-- COLD_RESET_ASSERT (R398). -/
def execColdResetAssert (cause : ColdCause) (s : State) : Host.Outcome State Fault Refusal :=
  if (match cause with | .railLow r => decide (r < 6) | _ => true) then
    match coldCause cause s.m with
    | some m => .next (s.onMach (fun _ => m))
    | none => .fault .pulseUndefined
  else .refused .noSuchUnit

/-- COLD_RESET_RELEASE (R398). -/
def execColdResetRelease (s : State) : Host.Outcome State Fault Refusal := State.does coldRelease s

/-- STARTUP_CHECKER_TEST (R340). -/
def execStartupCheckerTest (failed : List CheckerPart) (s : State) : Host.Outcome State Fault Refusal := State.run (failed.all checkerOk) (act (startupChecker failed)) s

/-- WARM_RESET_REQUEST (R399). -/
def execWarmResetRequest (who : Requester) (s : State) : Host.Outcome State Fault Refusal := State.does (rowWarmResetRequest who) s

/-- WARM_RESET_RELEASE (R399). -/
def execWarmResetRelease (s : State) : Host.Outcome State Fault Refusal := State.does warmRelease s

/-- START_TIMEOUT (R404). -/
def execStartTimeout (s : State) : Host.Outcome State Fault Refusal := State.does (act Sys2Proof.Machine.startTimeout) s

/-- PARTITION_RESET (R401). -/
def execPartitionReset (who : Requester) (mask : Nat) (s : State) : Host.Outcome State Fault Refusal := State.does (rowPartitionReset who mask) s

/-- UNIT_RESET (R402). -/
def execUnitReset (who : Requester) (cls inst : Nat) (s : State) : Host.Outcome State Fault Refusal := State.does (rowUnitReset who cls inst) s

/-- UNIT_RESET_RELEASE (R402). -/
def execUnitResetRelease (s : State) : Host.Outcome State Fault Refusal := State.does (act unitRelease) s

/-- TEST_MODE_ENTER (R406). -/
def execTestModeEnter (who : Requester) (s : State) : Host.Outcome State Fault Refusal := State.does (rowTestModeEnter who) s

end Sys2Proof.Machine
end

