-- ==== Sys2Proof/Machine/ExecStacks.lean ====
section
/-! DEFINITION. The meanings of the work items and banks of the stacks (files 08 and 09): one definition per command. -/
namespace Sys2Proof.Machine

/-- ATTEND_ITEM (R242). -/
def execAttendItem (n : Nat) (s : State) : Host.Outcome State Fault Refusal := State.run (decide (n < 12)) (act (itemBegin n 1)) s

/-- PGEMV_ITEM (R247). -/
def execPgemvItem (n : Nat) (s : State) : Host.Outcome State Fault Refusal := State.run (decide (n < 12)) (act (itemBegin n 2)) s

/-- APPEND_ITEM (R248). -/
def execAppendItem (n : Nat) (s : State) : Host.Outcome State Fault Refusal := State.run (decide (n < 12)) (act (appendItem n)) s

/-- ITEM_BANK_TAKE (R210). -/
def execItemBankTake (n : Nat) (s : State) : Host.Outcome State Fault Refusal := State.run (decide (n < 12)) (act (itemBankTake n)) s

/-- RECORD_ARRIVAL (R244). -/
def execRecordArrival (n : Nat) (s : State) : Host.Outcome State Fault Refusal := State.run (decide (n < 12)) (act (recordArrival n)) s

/-- BANK_SERVICE_PERIOD (R212). -/
def execBankServicePeriod (n b : Nat) (s : State) : Host.Outcome State Fault Refusal := State.run (decide (n < 12 ∧ b < 512)) (act (bankService n b)) s

/-- BANK_YIELD_POINT (R211). -/
def execBankYieldPoint (n b : Nat) (s : State) : Host.Outcome State Fault Refusal := State.run (decide (n < 12 ∧ b < 512)) (act (bankYield n b)) s

/-- REFRESH_SLOT (R214). -/
def execRefreshSlot (n q : Nat) (s : State) : Host.Outcome State Fault Refusal := State.run (decide (n < 12 ∧ q < 4)) (refreshSlot n q) s

/-- REFRESH_CALENDAR_CHANGE (R45). -/
def execRefreshCalendarChange (n : Nat) (hot : Bool) (s : State) : Host.Outcome State Fault Refusal := State.run (decide (n < 12)) (refreshCalendar n hot) s

/-- STACK_THROTTLE_ONSET (R224). -/
def execStackThrottleOnset (n : Nat) (s : State) : Host.Outcome State Fault Refusal := State.run (decide (n < 12)) (throttleOnsetAt n) s

/-- STACK_THROTTLE_CLEAR (R223). -/
def execStackThrottleClear (n : Nat) (s : State) : Host.Outcome State Fault Refusal := State.run (decide (n < 12)) (throttleClear n) s

/-- STACK_FORGET_GO (R221). -/
def execStackForgetGo (who : Requester) (n base len : Nat) (s : State) : Host.Outcome State Fault Refusal := State.run (decide (n < 12)) (rowStackForgetGo who n base len) s

/-- FORGET_DONE (R221). -/
def execForgetDone (n : Nat) (s : State) : Host.Outcome State Fault Refusal := State.run (decide (n < 12)) (act (forgetDone n)) s

/-- POOL_ADD_GO (R235). -/
def execPoolAddGo (who : Requester) (p n first count : Nat) (s : State) : Host.Outcome State Fault Refusal := State.run (decide (p < 16 ∧ n < 12)) (rowPoolAddGo who p n first count) s

/-- POOL_ADD_DONE (R235). -/
def execPoolAddDone (p n : Nat) (s : State) : Host.Outcome State Fault Refusal := State.run (decide (p < 16 ∧ n < 12)) (act (poolAddDone p n)) s

end Sys2Proof.Machine
end

