-- ==== Sys2Proof/Machine/ExecTrust.lean ====
section
/-! DEFINITION. The meanings of firmware, the option store, SPDM, measurement, sealing and import (file 14): one definition per command. -/
namespace Sys2Proof.Machine

/-- FIRMWARE_BOOT_GO (R356). -/
def execFirmwareBootGo (who : Requester) (len : Nat) (s : State) : Host.Outcome State Fault Refusal := State.does (rowFirmwareBootGo who len) s

/-- FIRMWARE_VERIFY_DONE (R356). -/
def execFirmwareVerifyDone (s : State) : Host.Outcome State Fault Refusal := State.does (act (firmwareVerified s.nv.arb)) s

/-- FIRMWARE_STARTED (R404). -/
def execFirmwareStarted (who : Requester) (s : State) : Host.Outcome State Fault Refusal := State.does (rowFirmwareStarted who) s

/-- ARB_ADVANCE (R357). -/
def execArbAdvance (who : Requester) (target : Nat) (s : State) : Host.Outcome State Fault Refusal :=
  .next { s.onMach (fun m => m.accessAt who (.arbAdvance who target) arbOffset id) with nv := s.nv.advanceBy s.m who target }

/-- OPTION_STORE_WRITE (R360). -/
def execOptionStoreWrite (who : Requester) (offset len : Nat) (s : State) : Host.Outcome State Fault Refusal := State.does (rowOptionStoreWrite who offset len) s

/-- OPTION_STORE_WRITE_DONE (R362). -/
def execOptionStoreWriteDone (s : State) : Host.Outcome State Fault Refusal :=
  if s.m.awake then
    let r := optionDone s.nv s.m
    .next { s with nv := r.1, m := r.2 }
  else .next s

/-- OPTION_LOAD (R361). -/
def execOptionLoad (s : State) : Host.Outcome State Fault Refusal := State.does (act (Sys2Proof.Machine.optionLoad s.nv)) s

/-- GET_VERSION (R363). -/
def execGetVersion (t : Transport) (req : Bytes) (s : State) : Host.Outcome State Fault Refusal := State.run (transportOk t) (rowGetVersion s.nv t req) s

/-- GET_CAPABILITIES (R363). -/
def execGetCapabilities (t : Transport) (req : Bytes) (s : State) : Host.Outcome State Fault Refusal := State.run (transportOk t) (rowGetCapabilities s.nv t req) s

/-- NEGOTIATE_ALGORITHMS (R363). -/
def execNegotiateAlgorithms (t : Transport) (req : Bytes) (s : State) : Host.Outcome State Fault Refusal := State.run (transportOk t) (rowNegotiateAlgorithms s.nv t req) s

/-- GET_DIGESTS (R363). -/
def execGetDigests (t : Transport) (req : Bytes) (s : State) : Host.Outcome State Fault Refusal := State.run (transportOk t) (rowGetDigests s.nv t req) s

/-- GET_CERTIFICATE (R363). -/
def execGetCertificate (t : Transport) (req : Bytes) (s : State) : Host.Outcome State Fault Refusal := State.run (transportOk t) (rowGetCertificate s.nv t req) s

/-- CHALLENGE (R363). -/
def execChallenge (t : Transport) (req : Bytes) (s : State) : Host.Outcome State Fault Refusal := State.run (transportOk t) (rowChallenge s.nv t req) s

/-- GET_MEASUREMENTS (R364). -/
def execGetMeasurements (t : Transport) (req : Bytes) (s : State) : Host.Outcome State Fault Refusal := State.run (transportOk t) (rowGetMeasurements s.nv t req) s

/-- KEY_EXCHANGE (R363). -/
def execKeyExchange (t : Transport) (req : Bytes) (s : State) : Host.Outcome State Fault Refusal := State.run (transportOk t) (rowKeyExchange s.nv t req) s

/-- FINISH (R363). -/
def execFinish (t : Transport) (req : Bytes) (s : State) : Host.Outcome State Fault Refusal := State.run (transportOk t) (rowFinish s.nv t req) s

/-- END_SESSION (R363). -/
def execEndSession (t : Transport) (req : Bytes) (s : State) : Host.Outcome State Fault Refusal := State.run (transportOk t) (rowEndSession s.nv t req) s

/-- VENDOR_DEFINED_REQUEST (R363). -/
def execVendorDefinedRequest (t : Transport) (req : Bytes) (s : State) : Host.Outcome State Fault Refusal := State.run (transportOk t) (rowVendorDefinedRequest s.nv t req) s

/-- KEYAGREE (R366). -/
def execKeyagree (t : Transport) (k : KeyReq) (s : State) : Host.Outcome State Fault Refusal := State.run (transportOk t) (rowKeyagree t k) s

/-- WEIGHT_MEASURE_GO (R365). -/
def execWeightMeasureGo (who : Requester) (p : Nat) (s : State) : Host.Outcome State Fault Refusal := State.run (decide (p < 16)) (rowWeightMeasureGo who p) s

/-- WEIGHT_MEASURE_DONE (R365). -/
def execWeightMeasureDone (p : Nat) (s : State) : Host.Outcome State Fault Refusal := State.run (decide (p < 16)) (act (measureDone p)) s

/-- PARTITION_SEAL (R368). -/
def execPartitionSeal (who : Requester) (p : Nat) (s : State) : Host.Outcome State Fault Refusal := State.run (decide (p < 16)) (rowPartitionSeal who p) s

/-- IMPORT_GO (R371). -/
def execImportGo (who : Requester) (p len : Nat) (s : State) : Host.Outcome State Fault Refusal := State.run (decide (p < 16)) (rowImportGo who p len) s

/-- IMPORT_DONE (R371). -/
def execImportDone (p : Nat) (s : State) : Host.Outcome State Fault Refusal := State.run (decide (p < 16)) (act (importDone p)) s

end Sys2Proof.Machine
end

