-- ==== Sys2Proof/Machine/Dispatch.lean ====
section
/-! DEFINITION. exec: one arm per command, each a direct call of its meaning. -/
namespace Sys2Proof.Machine

def exec (i : Instr) (s : State) : Host.Outcome State Fault Refusal :=
  match i with
  | .registerWrite who off width v => Sys2Proof.Machine.execRegisterWrite who off width v s
  | .registerReadClear who off width => Sys2Proof.Machine.execRegisterReadClear who off width s
  | .globalBlockLock who => Sys2Proof.Machine.execGlobalBlockLock who s
  | .timeNowLowRead who => Sys2Proof.Machine.execTimeNowLowRead who s
  | .timeCtlLoad who => Sys2Proof.Machine.execTimeCtlLoad who s
  | .timeRoleWrite who v => Sys2Proof.Machine.execTimeRoleWrite who v s
  | .tickBoundary => Sys2Proof.Machine.execTickBoundary s
  | .stepDeadlineMiss p => Sys2Proof.Machine.execStepDeadlineMiss p s
  | .commandCompletion p q => Sys2Proof.Machine.execCommandCompletion p q s
  | .nop p q c => Sys2Proof.Machine.execNop p q c s
  | .kernel p q c => Sys2Proof.Machine.execKernel p q c s
  | .stack p q c => Sys2Proof.Machine.execStack p q c s
  | .copy p q c => Sys2Proof.Machine.execCopy p q c s
  | .copyFill p q c => Sys2Proof.Machine.execCopyFill p q c s
  | .copyAmo p q c => Sys2Proof.Machine.execCopyAmo p q c s
  | .remoteWrite p q c => Sys2Proof.Machine.execRemoteWrite p q c s
  | .remoteRead p q c => Sys2Proof.Machine.execRemoteRead p q c s
  | .seal p q c => Sys2Proof.Machine.execSeal p q c s
  | .wait p q c => Sys2Proof.Machine.execWait p q c s
  | .patch p q c => Sys2Proof.Machine.execPatch p q c s
  | .mark p q c => Sys2Proof.Machine.execMark p q c s
  | .jump p q c => Sys2Proof.Machine.execJump p q c s
  | .flush p q c => Sys2Proof.Machine.execFlush p q c s
  | .sample p q c => Sys2Proof.Machine.execSample p q c s
  | .powerStart p q c => Sys2Proof.Machine.execPowerStart p q c s
  | .powerStop p q c => Sys2Proof.Machine.execPowerStop p q c s
  | .domainReady d => Sys2Proof.Machine.execDomainReady d s
  | .build p q c => Sys2Proof.Machine.execBuild p q c s
  | .emit p q c => Sys2Proof.Machine.execEmit p q c s
  | .seqAdmit p q c => Sys2Proof.Machine.execSeqAdmit p q c s
  | .activate p q c => Sys2Proof.Machine.execActivate p q c s
  | .hold p q c => Sys2Proof.Machine.execHold p q c s
  | .release p q c => Sys2Proof.Machine.execRelease p q c s
  | .park p q c => Sys2Proof.Machine.execPark p q c s
  | .retire p q c => Sys2Proof.Machine.execRetire p q c s
  | .free p q c => Sys2Proof.Machine.execFree p q c s
  | .pend p q c => Sys2Proof.Machine.execPend p q c s
  | .shed p q c => Sys2Proof.Machine.execShed p q c s
  | .setdl p q c => Sys2Proof.Machine.execSetdl p q c s
  | .pageAllocate p q c => Sys2Proof.Machine.execPageAllocate p q c s
  | .pageFree p q c => Sys2Proof.Machine.execPageFree p q c s
  | .pageForget p q c => Sys2Proof.Machine.execPageForget p q c s
  | .attendItem n => Sys2Proof.Machine.execAttendItem n s
  | .pgemvItem n => Sys2Proof.Machine.execPgemvItem n s
  | .appendItem n => Sys2Proof.Machine.execAppendItem n s
  | .itemBankTake n => Sys2Proof.Machine.execItemBankTake n s
  | .recordArrival n => Sys2Proof.Machine.execRecordArrival n s
  | .bankServicePeriod n b => Sys2Proof.Machine.execBankServicePeriod n b s
  | .bankYieldPoint n b => Sys2Proof.Machine.execBankYieldPoint n b s
  | .refreshSlot n q => Sys2Proof.Machine.execRefreshSlot n q s
  | .refreshCalendarChange n hot => Sys2Proof.Machine.execRefreshCalendarChange n hot s
  | .stackThrottleOnset n => Sys2Proof.Machine.execStackThrottleOnset n s
  | .stackThrottleClear n => Sys2Proof.Machine.execStackThrottleClear n s
  | .stackForgetGo who n base len => Sys2Proof.Machine.execStackForgetGo who n base len s
  | .forgetDone n => Sys2Proof.Machine.execForgetDone n s
  | .poolAddGo who p n first count => Sys2Proof.Machine.execPoolAddGo who p n first count s
  | .poolAddDone p n => Sys2Proof.Machine.execPoolAddDone p n s
  | .scAdd n => Sys2Proof.Machine.execScAdd n s
  | .scAddi n => Sys2Proof.Machine.execScAddi n s
  | .scSub n => Sys2Proof.Machine.execScSub n s
  | .scMul n => Sys2Proof.Machine.execScMul n s
  | .scAnd n => Sys2Proof.Machine.execScAnd n s
  | .scOr n => Sys2Proof.Machine.execScOr n s
  | .scXor n => Sys2Proof.Machine.execScXor n s
  | .scShl n => Sys2Proof.Machine.execScShl n s
  | .scShr n => Sys2Proof.Machine.execScShr n s
  | .scSar n => Sys2Proof.Machine.execScSar n s
  | .scLi n => Sys2Proof.Machine.execScLi n s
  | .scLdc n => Sys2Proof.Machine.execScLdc n s
  | .scCmplt n => Sys2Proof.Machine.execScCmplt n s
  | .scCmpeq n => Sys2Proof.Machine.execScCmpeq n s
  | .scBr n => Sys2Proof.Machine.execScBr n s
  | .scBz n => Sys2Proof.Machine.execScBz n s
  | .scBnz n => Sys2Proof.Machine.execScBnz n s
  | .scLoop n => Sys2Proof.Machine.execScLoop n s
  | .scQcfg n => Sys2Proof.Machine.execScQcfg n s
  | .scQrew n => Sys2Proof.Machine.execScQrew n s
  | .scMyid n => Sys2Proof.Machine.execScMyid n s
  | .scPeer n => Sys2Proof.Machine.execScPeer n s
  | .scSetprog n => Sys2Proof.Machine.execScSetprog n s
  | .scIfill n => Sys2Proof.Machine.execScIfill n s
  | .scMxfmt n => Sys2Proof.Machine.execScMxfmt n s
  | .scAmo n => Sys2Proof.Machine.execScAmo n s
  | .amoComplete n => Sys2Proof.Machine.execAmoComplete n s
  | .vxAdd n => Sys2Proof.Machine.execVxAdd n s
  | .vxSub n => Sys2Proof.Machine.execVxSub n s
  | .vxMul n => Sys2Proof.Machine.execVxMul n s
  | .vxFma n => Sys2Proof.Machine.execVxFma n s
  | .vxMax n => Sys2Proof.Machine.execVxMax n s
  | .vxMin n => Sys2Proof.Machine.execVxMin n s
  | .vxExp n => Sys2Proof.Machine.execVxExp n s
  | .vxRcp n => Sys2Proof.Machine.execVxRcp n s
  | .vxRsqrt n => Sys2Proof.Machine.execVxRsqrt n s
  | .vxRsum n => Sys2Proof.Machine.execVxRsum n s
  | .vxRmax n => Sys2Proof.Machine.execVxRmax n s
  | .vxGather n => Sys2Proof.Machine.execVxGather n s
  | .vxCvt n => Sys2Proof.Machine.execVxCvt n s
  | .vxScal n => Sys2Proof.Machine.execVxScal n s
  | .vxBcast n => Sys2Proof.Machine.execVxBcast n s
  | .vxCmp n => Sys2Proof.Machine.execVxCmp n s
  | .vxSel n => Sys2Proof.Machine.execVxSel n s
  | .vectorTokenSet n => Sys2Proof.Machine.execVectorTokenSet n s
  | .mxMma n => Sys2Proof.Machine.execMxMma n s
  | .mmaComplete n => Sys2Proof.Machine.execMmaComplete n s
  | .mxDrain n => Sys2Proof.Machine.execMxDrain n s
  | .drainStart n v => Sys2Proof.Machine.execDrainStart n v s
  | .drainRowPush n => Sys2Proof.Machine.execDrainRowPush n s
  | .ldTile n => Sys2Proof.Machine.execLdTile n s
  | .loadEntryReady n q => Sys2Proof.Machine.execLoadEntryReady n q s
  | .stTile n => Sys2Proof.Machine.execStTile n s
  | .storeComplete n => Sys2Proof.Machine.execStoreComplete n s
  | .syAwait n => Sys2Proof.Machine.execSyAwait n s
  | .sySpace n => Sys2Proof.Machine.execSySpace n s
  | .syStw n => Sys2Proof.Machine.execSyStw n s
  | .syLdw n => Sys2Proof.Machine.execSyLdw n s
  | .syMx n => Sys2Proof.Machine.execSyMx n s
  | .syDr n => Sys2Proof.Machine.execSyDr n s
  | .syIfill n => Sys2Proof.Machine.execSyIfill n s
  | .syBar n => Sys2Proof.Machine.execSyBar n s
  | .barrierRelease p g => Sys2Proof.Machine.execBarrierRelease p g s
  | .syCyc n => Sys2Proof.Machine.execSyCyc n s
  | .sySwpt n => Sys2Proof.Machine.execSySwpt n s
  | .syEnd n => Sys2Proof.Machine.execSyEnd n s
  | .syIdle n => Sys2Proof.Machine.execSyIdle n s
  | .syAmo n => Sys2Proof.Machine.execSyAmo n s
  | .groupStop p g => Sys2Proof.Machine.execGroupStop p g s
  | .watchdogExpiry n => Sys2Proof.Machine.execWatchdogExpiry n s
  | .ifillGo who n src dst count => Sys2Proof.Machine.execIfillGo who n src dst count s
  | .ifillDone n => Sys2Proof.Machine.execIfillDone n s
  | .coreRetire who n => Sys2Proof.Machine.execCoreRetire who n s
  | .descriptorCreate who p => Sys2Proof.Machine.execDescriptorCreate who p s
  | .descriptorValidationDone p => Sys2Proof.Machine.execDescriptorValidationDone p s
  | .descriptorDestroy who p target => Sys2Proof.Machine.execDescriptorDestroy who p target s
  | .descriptorDrainDone p k => Sys2Proof.Machine.execDescriptorDrainDone p k s
  | .secAllocWrite who p a len v => Sys2Proof.Machine.execSecAllocWrite who p a len v s
  | .partitionEnable who p v => Sys2Proof.Machine.execPartitionEnable who p v s
  | .partitionSwitchGo who a b => Sys2Proof.Machine.execPartitionSwitchGo who a b s
  | .switchPhaseComplete => Sys2Proof.Machine.execSwitchPhaseComplete s
  | .switchDrainForce n => Sys2Proof.Machine.execSwitchDrainForce n s
  | .writeFrame n f => Sys2Proof.Machine.execWriteFrame n f s
  | .sealFrame n f => Sys2Proof.Machine.execSealFrame n f s
  | .sealHoldExpiry src p x => Sys2Proof.Machine.execSealHoldExpiry src p x s
  | .transferCloseExpiry src p x => Sys2Proof.Machine.execTransferCloseExpiry src p x s
  | .readreqFrame n f => Sys2Proof.Machine.execReadreqFrame n f s
  | .readrepFrame n f => Sys2Proof.Machine.execReadrepFrame n f s
  | .atomreqFrame n f => Sys2Proof.Machine.execAtomreqFrame n f s
  | .atomrepFrame n f => Sys2Proof.Machine.execAtomrepFrame n f s
  | .replyLimitExpiry p q => Sys2Proof.Machine.execReplyLimitExpiry p q s
  | .unknownFrame n => Sys2Proof.Machine.execUnknownFrame n s
  | .trainFrame n dark => Sys2Proof.Machine.execTrainFrame n dark s
  | .syncFrame n gm dist sender sub => Sys2Proof.Machine.execSyncFrame n gm dist sender sub s
  | .syncSendTimer => Sys2Proof.Machine.execSyncSendTimer s
  | .syncSilenceTimeout => Sys2Proof.Machine.execSyncSilenceTimeout s
  | .holdoverTimeout => Sys2Proof.Machine.execHoldoverTimeout s
  | .stopFrame n src mask => Sys2Proof.Machine.execStopFrame n src mask s
  | .startFrame n src mask => Sys2Proof.Machine.execStartFrame n src mask s
  | .digestFrame n f => Sys2Proof.Machine.execDigestFrame n f s
  | .checkFrame n f => Sys2Proof.Machine.execCheckFrame n f s
  | .fenceFrame x => Sys2Proof.Machine.execFenceFrame x s
  | .digestReady => Sys2Proof.Machine.execDigestReady s
  | .pairWaitExpiry => Sys2Proof.Machine.execPairWaitExpiry s
  | .pairGraceExpiry => Sys2Proof.Machine.execPairGraceExpiry s
  | .outputPortSend n => Sys2Proof.Machine.execOutputPortSend n s
  | .linkSignalLoss n => Sys2Proof.Machine.execLinkSignalLoss n s
  | .linkFecFail n hdr => Sys2Proof.Machine.execLinkFecFail n hdr s
  | .linkRetrainTimer n => Sys2Proof.Machine.execLinkRetrainTimer n s
  | .linkRetrain who n => Sys2Proof.Machine.execLinkRetrain who n s
  | .linkTrainingDone n t => Sys2Proof.Machine.execLinkTrainingDone n t s
  | .plugRemoval n => Sys2Proof.Machine.execPlugRemoval n s
  | .cxlMemRead a len => Sys2Proof.Machine.execCxlMemRead a len s
  | .cxlMemWrite a data => Sys2Proof.Machine.execCxlMemWrite a data s
  | .hdmCommit size ways => Sys2Proof.Machine.execHdmCommit size ways s
  | .ucieModuleFail k => Sys2Proof.Machine.execUcieModuleFail k s
  | .sidebandIdentity => Sys2Proof.Machine.execSidebandIdentity s
  | .sidebandTemperature => Sys2Proof.Machine.execSidebandTemperature s
  | .mailboxWrite data => Sys2Proof.Machine.execMailboxWrite data s
  | .mailboxRead => Sys2Proof.Machine.execMailboxRead s
  | .identifyMemoryDevice => Sys2Proof.Machine.execIdentifyMemoryDevice s
  | .getSupportedLogs => Sys2Proof.Machine.execGetSupportedLogs s
  | .getLog req => Sys2Proof.Machine.execGetLog req s
  | .getHealthInfo => Sys2Proof.Machine.execGetHealthInfo s
  | .mailboxUnsupported opcode => Sys2Proof.Machine.execMailboxUnsupported opcode s
  | .doeDiscovery index => Sys2Proof.Machine.execDoeDiscovery index s
  | .cdatRead req => Sys2Proof.Machine.execCdatRead req s
  | .farPortEnable who v => Sys2Proof.Machine.execFarPortEnable who v s
  | .farPortUp es => Sys2Proof.Machine.execFarPortUp es s
  | .farAccessComplete slot poison => Sys2Proof.Machine.execFarAccessComplete slot poison s
  | .farAccessTimeout slot => Sys2Proof.Machine.execFarAccessTimeout slot s
  | .farLinkDown e sent => Sys2Proof.Machine.execFarLinkDown e sent s
  | .lockstepMismatch => Sys2Proof.Machine.execLockstepMismatch s
  | .mcLockstepMismatch k => Sys2Proof.Machine.execMcLockstepMismatch k s
  | .seamCrcError dir => Sys2Proof.Machine.execSeamCrcError dir s
  | .faultAck who p => Sys2Proof.Machine.execFaultAck who p s
  | .faultStopClear who mask => Sys2Proof.Machine.execFaultStopClear who mask s
  | .retireRow who n b row => Sys2Proof.Machine.execRetireRow who n b row s
  | .rowCopySlot => Sys2Proof.Machine.execRowCopySlot s
  | .retireBank who n b => Sys2Proof.Machine.execRetireBank who n b s
  | .retireStack who n => Sys2Proof.Machine.execRetireStack who n s
  | .selfCheckGo who => Sys2Proof.Machine.execSelfCheckGo who s
  | .selfCheckDone failed => Sys2Proof.Machine.execSelfCheckDone failed s
  | .diagTest failed => Sys2Proof.Machine.execDiagTest failed s
  | .faultInjArm who addr syms => Sys2Proof.Machine.execFaultInjArm who addr syms s
  | .firmwareBootGo who len => Sys2Proof.Machine.execFirmwareBootGo who len s
  | .firmwareVerifyDone => Sys2Proof.Machine.execFirmwareVerifyDone s
  | .firmwareStarted who => Sys2Proof.Machine.execFirmwareStarted who s
  | .arbAdvance who target => Sys2Proof.Machine.execArbAdvance who target s
  | .optionStoreWrite who offset len => Sys2Proof.Machine.execOptionStoreWrite who offset len s
  | .optionStoreWriteDone => Sys2Proof.Machine.execOptionStoreWriteDone s
  | .optionLoad => Sys2Proof.Machine.execOptionLoad s
  | .getVersion t req => Sys2Proof.Machine.execGetVersion t req s
  | .getCapabilities t req => Sys2Proof.Machine.execGetCapabilities t req s
  | .negotiateAlgorithms t req => Sys2Proof.Machine.execNegotiateAlgorithms t req s
  | .getDigests t req => Sys2Proof.Machine.execGetDigests t req s
  | .getCertificate t req => Sys2Proof.Machine.execGetCertificate t req s
  | .challenge t req => Sys2Proof.Machine.execChallenge t req s
  | .getMeasurements t req => Sys2Proof.Machine.execGetMeasurements t req s
  | .keyExchange t req => Sys2Proof.Machine.execKeyExchange t req s
  | .finish t req => Sys2Proof.Machine.execFinish t req s
  | .endSession t req => Sys2Proof.Machine.execEndSession t req s
  | .vendorDefinedRequest t req => Sys2Proof.Machine.execVendorDefinedRequest t req s
  | .keyagree t k => Sys2Proof.Machine.execKeyagree t k s
  | .weightMeasureGo who p => Sys2Proof.Machine.execWeightMeasureGo who p s
  | .weightMeasureDone p => Sys2Proof.Machine.execWeightMeasureDone p s
  | .partitionSeal who p => Sys2Proof.Machine.execPartitionSeal who p s
  | .importGo who p len => Sys2Proof.Machine.execImportGo who p len s
  | .importDone p => Sys2Proof.Machine.execImportDone p s
  | .powerStateRequest who target => Sys2Proof.Machine.execPowerStateRequest who target s
  | .stateEntryDone => Sys2Proof.Machine.execStateEntryDone s
  | .wakePin => Sys2Proof.Machine.execWakePin s
  | .wakeTimer => Sys2Proof.Machine.execWakeTimer s
  | .hostWakeRequest => Sys2Proof.Machine.execHostWakeRequest s
  | .dawnStageReady tag => Sys2Proof.Machine.execDawnStageReady tag s
  | .dawnStageTimeout => Sys2Proof.Machine.execDawnStageTimeout s
  | .dayReached => Sys2Proof.Machine.execDayReached s
  | .powerGuardSample watts => Sys2Proof.Machine.execPowerGuardSample watts s
  | .thermNowRead who z => Sys2Proof.Machine.execThermNowRead who z s
  | .conversionDone readings => Sys2Proof.Machine.execConversionDone readings s
  | .dieTrip d => Sys2Proof.Machine.execDieTrip d s
  | .dramTrip n => Sys2Proof.Machine.execDramTrip n s
  | .railFail k => Sys2Proof.Machine.execRailFail k s
  | .pllLockLoss d => Sys2Proof.Machine.execPllLockLoss d s
  | .coldResetAssert cause => Sys2Proof.Machine.execColdResetAssert cause s
  | .coldResetRelease => Sys2Proof.Machine.execColdResetRelease s
  | .startupCheckerTest failed => Sys2Proof.Machine.execStartupCheckerTest failed s
  | .warmResetRequest who => Sys2Proof.Machine.execWarmResetRequest who s
  | .warmResetRelease => Sys2Proof.Machine.execWarmResetRelease s
  | .startTimeout => Sys2Proof.Machine.execStartTimeout s
  | .partitionReset who mask => Sys2Proof.Machine.execPartitionReset who mask s
  | .unitReset who cls inst => Sys2Proof.Machine.execUnitReset who cls inst s
  | .unitResetRelease => Sys2Proof.Machine.execUnitResetRelease s
  | .testModeEnter who => Sys2Proof.Machine.execTestModeEnter who s
  | .qctlResume who p q => Sys2Proof.Machine.execQctlResume who p q s
  | .qctlEnable who p q v => Sys2Proof.Machine.execQctlEnable who p q v s
  | .evraise who p e => Sys2Proof.Machine.execEvraise who p e s
  | .ucieTrainingDone mods flit => Sys2Proof.Machine.execUcieTrainingDone mods flit s
  | .linkLevelRetry => Sys2Proof.Machine.execLinkLevelRetry s
  | .plugInsertion n => Sys2Proof.Machine.execPlugInsertion n s
  | .scalarResultWrite n => Sys2Proof.Machine.execScalarResultWrite n s

end Sys2Proof.Machine
end

