-- ==== Sys2Proof/WellFormed.lean ====
section
/-! DEFINITION. Well-formed commands: every operand that names a unit names one the block has (R8, R9, R15), and every field fits the width the spec gives it. -/
namespace Sys2Proof

def partOk (p : Nat) : Bool := decide (p < 16)
def queueOk (q : Nat) : Bool := decide (q < 20)
def coreOk (n : Nat) : Bool := decide (n < 192)
def stackOk (n : Nat) : Bool := decide (n < 12)
def portOk (n : Nat) : Bool := decide (n < 16)
def bankOk (b : Nat) : Bool := decide (b < 512)

/-- Widths that a request of the control space can have on the bus; R11 refuses all but 32 and 64. -/
def widthOk (w : Nat) : Bool := w == 8 || w == 16 || w == 32 || w == 64

/-- The transport of an SPDM message exists. -/
def transportExists : Transport → Bool
  | .link n => portOk n
  | _ => true

/-- The part of a checker test exists. -/
def partExists : CheckerPart → Bool
  | .stack n => stackOk n
  | .quad n q => stackOk n && decide (q < 4)
  | .cache d => decide (d < 2)
  | .core n => coreOk n
  | .hub => true

/-- The command is well formed. -/
def Instr.wf : Instr → Bool
  | .registerWrite _ _ width v => widthOk width && decide (v < 2 ^ width)
  | .registerReadClear _ _ width => widthOk width
  | .globalBlockLock _ => true
  | .timeNowLowRead _ => true
  | .timeCtlLoad _ => true
  | .timeRoleWrite _ v => decide (v < 4)
  | .tickBoundary => true
  | .stepDeadlineMiss p => partOk p
  | .commandCompletion p q => partOk p && queueOk q
  | .nop p q c => partOk p && queueOk q && c.fits
  | .kernel p q c => partOk p && queueOk q && c.fits
  | .stack p q c => partOk p && queueOk q && c.fits
  | .copy p q c => partOk p && queueOk q && c.fits
  | .copyFill p q c => partOk p && queueOk q && c.fits
  | .copyAmo p q c => partOk p && queueOk q && c.fits
  | .remoteWrite p q c => partOk p && queueOk q && c.fits
  | .remoteRead p q c => partOk p && queueOk q && c.fits
  | .seal p q c => partOk p && queueOk q && c.fits
  | .wait p q c => partOk p && queueOk q && c.fits
  | .patch p q c => partOk p && queueOk q && c.fits
  | .mark p q c => partOk p && queueOk q && c.fits
  | .jump p q c => partOk p && queueOk q && c.fits
  | .flush p q c => partOk p && queueOk q && c.fits
  | .sample p q c => partOk p && queueOk q && c.fits
  | .powerStart p q c => partOk p && queueOk q && c.fits
  | .powerStop p q c => partOk p && queueOk q && c.fits
  | .domainReady d => decide (d < 257)
  | .build p q c => partOk p && queueOk q && c.fits
  | .emit p q c => partOk p && queueOk q && c.fits
  | .seqAdmit p q c => partOk p && queueOk q && c.fits
  | .activate p q c => partOk p && queueOk q && c.fits
  | .hold p q c => partOk p && queueOk q && c.fits
  | .release p q c => partOk p && queueOk q && c.fits
  | .park p q c => partOk p && queueOk q && c.fits
  | .retire p q c => partOk p && queueOk q && c.fits
  | .free p q c => partOk p && queueOk q && c.fits
  | .pend p q c => partOk p && queueOk q && c.fits
  | .shed p q c => partOk p && queueOk q && c.fits
  | .setdl p q c => partOk p && queueOk q && c.fits
  | .pageAllocate p q c => partOk p && queueOk q && c.fits
  | .pageFree p q c => partOk p && queueOk q && c.fits
  | .pageForget p q c => partOk p && queueOk q && c.fits
  | .attendItem n => stackOk n
  | .pgemvItem n => stackOk n
  | .appendItem n => stackOk n
  | .itemBankTake n => stackOk n
  | .recordArrival n => stackOk n
  | .bankServicePeriod n b => stackOk n && bankOk b
  | .bankYieldPoint n b => stackOk n && bankOk b
  | .refreshSlot n q => stackOk n && decide (q < 4)
  | .refreshCalendarChange n _ => stackOk n
  | .stackThrottleOnset n => stackOk n
  | .stackThrottleClear n => stackOk n
  | .stackForgetGo _ n _ _ => stackOk n
  | .forgetDone n => stackOk n
  | .poolAddGo _ p n _ _ => partOk p && stackOk n
  | .poolAddDone p n => partOk p && stackOk n
  | .scAdd n => coreOk n
  | .scAddi n => coreOk n
  | .scSub n => coreOk n
  | .scMul n => coreOk n
  | .scAnd n => coreOk n
  | .scOr n => coreOk n
  | .scXor n => coreOk n
  | .scShl n => coreOk n
  | .scShr n => coreOk n
  | .scSar n => coreOk n
  | .scLi n => coreOk n
  | .scLdc n => coreOk n
  | .scCmplt n => coreOk n
  | .scCmpeq n => coreOk n
  | .scBr n => coreOk n
  | .scBz n => coreOk n
  | .scBnz n => coreOk n
  | .scLoop n => coreOk n
  | .scQcfg n => coreOk n
  | .scQrew n => coreOk n
  | .scMyid n => coreOk n
  | .scPeer n => coreOk n
  | .scSetprog n => coreOk n
  | .scIfill n => coreOk n
  | .scMxfmt n => coreOk n
  | .scAmo n => coreOk n
  | .amoComplete n => coreOk n
  | .vxAdd n => coreOk n
  | .vxSub n => coreOk n
  | .vxMul n => coreOk n
  | .vxFma n => coreOk n
  | .vxMax n => coreOk n
  | .vxMin n => coreOk n
  | .vxExp n => coreOk n
  | .vxRcp n => coreOk n
  | .vxRsqrt n => coreOk n
  | .vxRsum n => coreOk n
  | .vxRmax n => coreOk n
  | .vxGather n => coreOk n
  | .vxCvt n => coreOk n
  | .vxScal n => coreOk n
  | .vxBcast n => coreOk n
  | .vxCmp n => coreOk n
  | .vxSel n => coreOk n
  | .vectorTokenSet n => coreOk n
  | .mxMma n => coreOk n
  | .mmaComplete n => coreOk n
  | .mxDrain n => coreOk n
  | .drainStart n _ => coreOk n
  | .drainRowPush n => coreOk n
  | .ldTile n => coreOk n
  | .loadEntryReady n q => coreOk n && decide (q < 32)
  | .stTile n => coreOk n
  | .storeComplete n => coreOk n
  | .syAwait n => coreOk n
  | .sySpace n => coreOk n
  | .syStw n => coreOk n
  | .syLdw n => coreOk n
  | .syMx n => coreOk n
  | .syDr n => coreOk n
  | .syIfill n => coreOk n
  | .syBar n => coreOk n
  | .barrierRelease p g => partOk p && decide (g < 4)
  | .syCyc n => coreOk n
  | .sySwpt n => coreOk n
  | .syEnd n => coreOk n
  | .syIdle n => coreOk n
  | .syAmo n => coreOk n
  | .groupStop p g => partOk p && decide (g < 4)
  | .watchdogExpiry n => coreOk n
  | .ifillGo _ n _ _ _ => coreOk n
  | .ifillDone n => coreOk n
  | .coreRetire _ n => coreOk n
  | .descriptorCreate _ p => partOk p
  | .descriptorValidationDone p => partOk p
  | .descriptorDestroy _ p _ => partOk p
  | .descriptorDrainDone p k => partOk p && decide (k < 4096)
  | .secAllocWrite _ p a _ _ => partOk p && decide (a < 256)
  | .partitionEnable _ p v => partOk p && decide (v < 2)
  | .partitionSwitchGo _ a b => partOk a && partOk b
  | .switchPhaseComplete => true
  | .switchDrainForce n => coreOk n
  | .writeFrame n f => portOk n && f.fits
  | .sealFrame n f => portOk n && f.fits
  | .sealHoldExpiry src p x => decide (src < 1024) && partOk p && decide (x < 65536)
  | .transferCloseExpiry src p x => decide (src < 1024) && partOk p && decide (x < 65536)
  | .readreqFrame n f => portOk n && f.fits
  | .readrepFrame n f => portOk n && f.fits
  | .atomreqFrame n f => portOk n && f.fits
  | .atomrepFrame n f => portOk n && f.fits
  | .replyLimitExpiry p q => partOk p && queueOk q
  | .unknownFrame n => portOk n
  | .trainFrame n _ => portOk n
  | .syncFrame n gm dist _ _ => portOk n && decide (gm < 1024 ∧ dist < 64)
  | .syncSendTimer => true
  | .syncSilenceTimeout => true
  | .holdoverTimeout => true
  | .stopFrame n src mask => portOk n && decide (src < 1024 ∧ mask < 65536)
  | .startFrame n src mask => portOk n && decide (src < 1024 ∧ mask < 65536)
  | .digestFrame n f => portOk n && f.fits && decide (f.len = 2)
  | .checkFrame n f => portOk n && f.fits && decide (f.len = 1)
  | .fenceFrame x => portOk x.1 && x.2.fits && decide (x.2.len = 0)
  | .digestReady => true
  | .pairWaitExpiry => true
  | .pairGraceExpiry => true
  | .outputPortSend n => portOk n
  | .linkSignalLoss n => portOk n
  | .linkFecFail n hdr => portOk n && (match hdr with | some f => f.fits | none => true)
  | .linkRetrainTimer n => portOk n
  | .linkRetrain _ n => portOk n
  | .linkTrainingDone n _ => portOk n
  | .plugRemoval n => portOk n
  | .cxlMemRead _ _ => true
  | .cxlMemWrite _ _ => true
  | .hdmCommit _ _ => true
  | .ucieModuleFail k => decide (k < 4)
  | .sidebandIdentity => true
  | .sidebandTemperature => true
  | .mailboxWrite data => decide (data.length = 64)
  | .mailboxRead => true
  | .identifyMemoryDevice => true
  | .getSupportedLogs => true
  | .getLog _ => true
  | .getHealthInfo => true
  | .mailboxUnsupported opcode => decide (opcode < 65536)
  | .doeDiscovery index => decide (index < 256)
  | .cdatRead _ => true
  | .farPortEnable _ v => decide (v < 2)
  | .farPortUp _ => true
  | .farAccessComplete _ _ => true
  | .farAccessTimeout _ => true
  | .farLinkDown e _ => decide (e < 4)
  | .lockstepMismatch => true
  | .mcLockstepMismatch k => decide (k < 2)
  | .seamCrcError dir => decide (dir < 2)
  | .faultAck _ p => partOk p
  | .faultStopClear _ mask => decide (mask < 65536)
  | .retireRow _ n b row => stackOk n && bankOk b && decide (row < 32768)
  | .rowCopySlot => true
  | .retireBank _ n b => stackOk n && bankOk b
  | .retireStack _ n => stackOk n
  | .selfCheckGo _ => true
  | .selfCheckDone failed => failed.all partExists
  | .diagTest failed => failed.all partExists
  | .faultInjArm _ addr syms => decide (addr < 2 ^ 48 ∧ syms < 4)
  | .firmwareBootGo _ len => decide (len < 2 ^ 23)
  | .firmwareVerifyDone => true
  | .firmwareStarted _ => true
  | .arbAdvance _ target => decide (target < 256)
  | .optionStoreWrite _ offset len => decide (offset < 65536 ∧ len < 65536)
  | .optionStoreWriteDone => true
  | .optionLoad => true
  | .getVersion t _ => transportExists t
  | .getCapabilities t _ => transportExists t
  | .negotiateAlgorithms t _ => transportExists t
  | .getDigests t _ => transportExists t
  | .getCertificate t _ => transportExists t
  | .challenge t _ => transportExists t
  | .getMeasurements t _ => transportExists t
  | .keyExchange t _ => transportExists t
  | .finish t _ => transportExists t
  | .endSession t _ => transportExists t
  | .vendorDefinedRequest t _ => transportExists t
  | .keyagree t _ => transportExists t
  | .weightMeasureGo _ p => partOk p
  | .weightMeasureDone p => partOk p
  | .partitionSeal _ p => partOk p
  | .importGo _ p _ => partOk p
  | .importDone p => partOk p
  | .powerStateRequest _ target => decide (target < 4)
  | .stateEntryDone => true
  | .wakePin => true
  | .wakeTimer => true
  | .hostWakeRequest => true
  | .dawnStageReady _ => true
  | .dawnStageTimeout => true
  | .dayReached => true
  | .powerGuardSample _ => true
  | .thermNowRead _ z => decide (z < 24)
  | .conversionDone _ => true
  | .dieTrip d => decide (d < 2)
  | .dramTrip n => stackOk n
  | .railFail k => decide (k < 6)
  | .pllLockLoss d => decide (d < 2)
  | .coldResetAssert cause => (match cause with | .railLow r => decide (r < 6) | _ => true)
  | .coldResetRelease => true
  | .startupCheckerTest failed => failed.all partExists
  | .warmResetRequest _ => true
  | .warmResetRelease => true
  | .startTimeout => true
  | .partitionReset _ mask => decide (mask < 65536)
  | .unitReset _ cls inst => decide (cls < 16 ∧ inst < 256)
  | .unitResetRelease => true
  | .testModeEnter _ => true
  | .qctlResume _ p q => partOk p && queueOk q
  | .qctlEnable _ p q v => partOk p && queueOk q && decide (v < 2)
  | .evraise _ p e => partOk p && decide (e < 256)
  | .ucieTrainingDone _ _ => true
  | .linkLevelRetry => true
  | .plugInsertion n => portOk n
  | .scalarResultWrite n => coreOk n

end Sys2Proof
end

