-- ==== Sys2Proof/Safety.lean ====
section
/-! DEFINITION. The terms that claims use: the canonical form of memory, the fuses, runs that stop nowhere, and when an agent's access, a core's slot or a command of a queue is the next to act. -/
namespace Sys2Proof.Machine

/-- The bytes of the block are in canonical form: addresses strictly rising, no entry equal to what an unlisted address reads as. -/
def Memory.wf (l : List Host.Cell) : Bool := canonical natBefore (fun _ => 0) l

/-- The count of blown anti-rollback fuses is one that 128 fuses can show (R357). -/
def State.fusesOk (s : State) : Prop := s.nv.arb ≤ 128

/-- A pulse on MRST_N whose effect the spec leaves undefined (R398). -/
def undefinedPulse : Instr → Bool
  | .coldResetAssert (.mrst ns) => decide (2000 ≤ ns) && decide (ns < 10000)
  | _ => false

/-- Commands that act while cold reset is asserted: they stand for what that reset does not hold (R225, R398, R407, R419). -/
def actsUnderColdReset : Instr → Bool
  | .coldResetAssert _ => true
  | .coldResetRelease => true
  | .warmResetRelease => true
  | .plugRemoval _ => true
  | .plugInsertion _ => true
  | .refreshSlot _ _ => true
  | .refreshCalendarChange _ _ => true
  | .stackThrottleOnset _ => true
  | .stackThrottleClear _ => true
  | _ => false

/-- The queue holds only commands that can be sent and whose effect the spec defines. -/
def State.sendable (s : State) : Prop := ∀ c ∈ s.pending, c.wf = true ∧ undefinedPulse c = false

/-- A read by an agent is answered at once: no reset stands, and either the host's port carries traffic and the block is in Day, or firmware runs (R369, R380, R381). -/
def Mach.answers (m : Mach) (who : Requester) : Bool :=
  m.awake && (match who with
    | .host => m.hostUp && m.stateInForce == 0
    | .fw => m.fwRuns)

/-- A write by an agent of the register at an offset is served at once: it is answered, and the agent has the right to the register (R369, R405). -/
def Mach.serves (m : Mach) (who : Requester) (off : Nat) : Bool :=
  m.answers who && (match who with
    | .host => m.hostMay off
    | .fw => m.fwReaches off)

/-- Word w, of slot k, is the next operation of core n's bundle: the core runs, its domain is clocked, the bundle is fetched and the slots before k have acted (R122, R123). -/
def Mach.atSlot (m : Mach) (n k w : Nat) : Bool :=
  m.awake && decide (n < 192) && (m.core n).run && !(m.core n).atSwitch && m.running n && (m.core n).fetched &&
    nextSlot (m.bundleAt n (m.coreD n).pc) (m.core n).slot == some k && slotWord (m.bundleAt n (m.coreD n).pc) k == w

/-- The same, of a word that R123 and the operation's own rule do not make illegal. -/
def Mach.slotReady (m : Mach) (n k w : Nat) : Bool := m.atSlot n k w && !slotIllegal k w

/-- Command c stands next in queue q of partition p, as raw resolves, is due, and passes the checks of R84. -/
def Mach.commandReady (m : Mach) (p q : Nat) (raw c : Cmd) : Bool :=
  decide (p < 16 ∧ q < 20) && m.resolve p q raw == c && m.canIssue p q c && ((m.endPreempt p c).checkCommand p q c).isNone

/-- The command as it joins the issued ones when it passes the checks. -/
def Mach.joining (m : Mach) (p q : Nat) (c : Cmd) : Issued :=
  let m' := m.endPreempt p c
  let k := m'.issueCauses p q c
  m'.newIssued p q (m.rd .SEQR_QHEAD_HEAD p q) c k.1 (k.1 != 0 || k.2) none

/-- The block once that command has taken its slot of the ring and joined the issued ones. -/
def Mach.joined (m : Mach) (p q : Nat) (c : Cmd) : Mach := ((m.endPreempt p c).takeSlot p q).enroll (m.joining p q c)

/-- A frame that arrives on port n is heard: no cold reset stands and the port is UP. -/
def Mach.hears (m : Mach) (n : Nat) : Bool := !m.resets.cold && m.portUp n

/-- The block once a frame heard on port n has been counted. -/
def Mach.counted (m : Mach) (n : Nat) : Mach := m.rxFrame n

/-- A routed frame heard on port n, that no STOP mask discards, has reached its last hop, this block, with firmware running, and is no frame of an SPDM message (R290, R302). -/
def Mach.reaches (m : Mach) (n : Nat) (f : Frame) : Bool :=
  m.hears n && !(m.counted n).stoppedFrame n f && decide (routeHops f.route ≤ f.hidx) && f.dstBlock == (m.counted n).rd .GLOBAL_BLOCK_NUM && (m.counted n).firmware &&
    !(f.typ == 0x10 && f.keyslot == 0 && f.addr == spdmAddr && f.dstPart == 0)

end Sys2Proof.Machine
end

