-- ==== Sys2Proof/Certificates/Slice0/Obligations.lean ====
section
/-! DEFINITION. Statements about the block for the provers, file by file of the spec. Each next state is written out over the shared operations, so that what it does not name stays as it was. -/
open Sys2Proof Sys2Proof.Machine

/-! ## The block as a whole -/

/-- A step takes the command at the front of the queue and leaves the rest waiting; on an empty queue the block idles (the model's choice, log entry 4). -/
def Obligations.StepTakesTheFrontCommand : Prop :=
  (∀ (c : Instr) (rest : List Instr) (s : State), step { s with pending := c :: rest } = exec c { s with pending := rest }) ∧
  (∀ s : State, s.pending = [] → step s = .next s)

/-- Every command that can be sent completes and leaves the waiting queue alone, but for a pulse on MRST_N whose effect R398 calls undefined, which stops the model. -/
def Obligations.SentCommandsComplete : Prop :=
  ∀ (i : Instr) (s : State), i.wf = true →
    (undefinedPulse i = false → ∃ t, exec i s = .next t ∧ t.pending = s.pending) ∧
    (undefinedPulse i = true → exec i s = .fault .pulseUndefined)

/-- Only a write of SEC_ARB changes the fuse count, and only the end of an option-store write changes the option store (R357, R360). -/
def Obligations.NonVolatileWriters : Prop :=
  ∀ (i : Instr) (s t : State), exec i s = .next t →
    (t.nv.arb ≠ s.nv.arb → (∃ target, i = .arbAdvance .fw target) ∨ ∃ width v, i = .registerWrite .fw 0x00C00018 width v) ∧
    (t.nv.opt ≠ s.nv.opt → i = .optionStoreWriteDone)

/-- R357: no step lowers the count of blown fuses, and none takes it past the 128 there are; firmware that writes ADVANCE, by its row or as a register, blows bits up to the lower of its target and the
running SVN, and a target at or below COUNT changes nothing; SEC_ARB.COUNT reads the number of bits blown. -/
def Obligations.FusesOnlyRise : Prop :=
  ∀ s : State, s.fusesOk →
    (∀ t, step s = .next t → t.fusesOk ∧ s.nv.arb ≤ t.nv.arb) ∧
    (s.m.serves .fw 0x00C00018 = true → ∀ target,
      let limit := min target (s.m.rd .SEC_BOOT_SVN)
      let nv : NonVol := { s.nv with arb := if s.nv.arb < limit then min 128 limit else s.nv.arb }
      exec (.arbAdvance .fw target) s = .next { s with nv := nv } ∧
      (target < 256 → ∃ t, exec (.registerWrite .fw 0x00C00018 64 (target * 2 ^ 16)) s = .next t ∧ t.nv = nv)) ∧
    (∀ who, s.m.answers who = true → exec (.registerReadClear who 0x00C00018 64) s = .next (s.onMach (fun m => m.emit (.regRead 0x00C00018 64 s.nv.arb))))

/-- After reset: the registers of GLOBAL as R13 gives them; the time base at 0; partition 0 enabled, resident and with every cache way, the others not; no firmware running, the state Day, no fault
open; memory with nothing listed and in its canonical form; no command waiting; and a fuse count that 128 fuses can show. -/
def Obligations.ResetStateHoldsTheStatedValues : Prop :=
  let m := State.reset.m
  m.rd .GLOBAL_ID_VENDOR = 0x1D7A ∧ m.rd .GLOBAL_ID_DEVICE = 0x0C12 ∧ m.rd .GLOBAL_REV_STEP = 0x10 ∧ m.rd .GLOBAL_REV_ROM = 0x0100 ∧ m.rd .GLOBAL_REV_OPTVALID = 0 ∧
  m.rd .GLOBAL_BLOCK_NUM = 0x3FF ∧ m.rd .GLOBAL_BLOCK_LOCK = 0 ∧ m.rd .GLOBAL_BADACC_COUNT = 0 ∧ m.time.ns = 0 ∧
  (∀ p < 16, m.rd .SEC_PART_CTL_ENABLE p = b2n (p = 0) ∧ m.rd .SEC_PART_CTL_RESIDENT p = b2n (p = 0) ∧ m.rd .SEC_PART_CWAYS_MASK p = if p = 0 then 0xFFFF else 0) ∧
  m.rd .SEC_BOOT_STATE = 0 ∧ m.rd .PWR_STATE_CUR = 0 ∧ m.rd .FAULT_STATUS_OPEN = 0 ∧ m.mem = [] ∧ Memory.wf m.mem = true ∧ State.reset.pending = [] ∧ State.reset.fusesOk

/-- The 64 bytes of a command spell that command, in every field at every value that R82 admits. -/
def Obligations.CommandBytesSpellTheCommand : Prop := ∀ c : Cmd, c.fits = true → cmdOf (cmdBytes c) = c ∧ (cmdBytes c).length = 64

/-- While cold reset is asserted, nothing that is sent changes the block, but for the commands that stand for what reset does not hold: its own assertion and release, a warm
reset's release, the plugs, and the temperature flags and refresh slots of the stacks (R398). -/
def Obligations.ColdResetHoldsTheBlock : Prop :=
  ∀ (i : Instr) (s : State), i.wf = true → s.m.resets.cold = true → actsUnderColdReset i = false → exec i s = .next s


/-! ## Registers, the tick and queue control (files 00, 02 and 04) -/

/-- The rows of one register field each: GLOBAL_BLOCK.LOCK sets, a load of the time base is requested for the next boundary, RESUME and EVRAISE wait for the boundary; QCTL.ENABLE written 0
disables the queue, written 1 enables one whose ring setting holds, leaves an enabled one, and is refused and counted elsewhere (R13, R27, R89, R104, R108). -/
def Obligations.RegisterRowsWriteTheirField : Prop :=
  ∀ (s : State) (who : Requester) (p q e : Nat), p < 16 → q < 20 → e < 256 →
    (s.m.serves who 0x10 = true → exec (.globalBlockLock who) s = .next (s.onMach (fun m => m.wr .GLOBAL_BLOCK_LOCK 1))) ∧
    (s.m.serves who 0x00100018 = true → exec (.timeCtlLoad who) s = .next (s.onMach (fun m => { m with time := { m.time with loadReq := true } }))) ∧
    (s.m.answers who = true → exec (.qctlResume who p q) s = .next (s.onMach (fun m => { m with sq := { m.sq with resumePend := m.sq.resumePend ++ [(p, q)] } }))) ∧
    (s.m.serves who (0x00200900 + p * 0x10000) = true →
      exec (.evraise who p e) s = .next (s.onMach (fun m => { m with sq := { m.sq with evPend := m.sq.evPend ++ [(p, e)] } }))) ∧
    (s.m.serves who (0x00200038 + p * 0x10000 + q * 0x40) = true →
      exec (.qctlEnable who p q 0) s = .next (s.onMach (fun m => m.wr .SEQR_QCTL_ENABLE 0 p q)) ∧
      (s.m.flag .SEQR_QCTL_ENABLE p q = true → exec (.qctlEnable who p q 1) s = .next s) ∧
      (s.m.flag .SEQR_QCTL_ENABLE p q = false → s.m.ringOk p q = true → exec (.qctlEnable who p q 1) s = .next (s.onMach (fun m => m.wr .SEQR_QCTL_ENABLE 1 p q))) ∧
      (s.m.flag .SEQR_QCTL_ENABLE p q = false → s.m.ringOk p q = false → exec (.qctlEnable who p q 1) s = .next (s.onMach (fun m => m.inc .GLOBAL_BADACC_COUNT))))

/-- TIME_CTL.ROLE: the field takes 0, 1 or 2, a grandmaster is LOCKED, a free-running block is FREE, a block that leaves the grandmaster role is in HOLDOVER; 3 is refused and counted (R26). -/
def Obligations.TimeRoleSetsTheState : Prop :=
  ∀ (s : State) (who : Requester) (v : Nat), s.m.serves who 0x00100018 = true →
    (v < 3 → ∃ t, exec (.timeRoleWrite who v) s = .next t ∧ t.m.rd .TIME_CTL_ROLE = v ∧
      t.m.rd .TIME_SYNC_STATE = (if v = s.m.rd .TIME_CTL_ROLE then s.m.rd .TIME_SYNC_STATE else if v = 1 then 2 else if v = 2 then 0
        else if s.m.rd .TIME_CTL_ROLE = 1 then 3 else s.m.rd .TIME_SYNC_STATE)) ∧
    exec (.timeRoleWrite who 3) s = .next (s.onMach (fun m => m.inc .GLOBAL_BADACC_COUNT))

/-- REGISTER_WRITE and REGISTER_READ_CLEAR: a served write acts on its word's fields; one to a reserved offset is counted and changes nothing else; GLOBAL_BLOCK.NUM takes its value while LOCK is 0
and keeps it while LOCK is 1; an answered read gives the word's value and clears the read-clear fields it touches, here GLOBAL_BADACC (R5, R10, R13). -/
def Obligations.RegisterAccessesActOnTheirWord : Prop :=
  ∀ (s : State) (who : Requester) (off width v : Nat),
    (s.m.serves who off = true →
      (off ≠ 0x00C00018 → exec (.registerWrite who off width v) s = .next (s.onMach (fullWrite off width v))) ∧
      (off = 0x01D00000 → width = 64 → exec (.registerWrite who off width v) s = .next (s.onMach (fun m => m.inc .GLOBAL_BADACC_COUNT))) ∧
      (off = 0x10 → width = 64 → v < 1024 → ∃ t, exec (.registerWrite who off width v) s = .next t ∧
        t.m.rd .GLOBAL_BLOCK_NUM = (if s.m.flag .GLOBAL_BLOCK_LOCK then s.m.rd .GLOBAL_BLOCK_NUM else v) ∧ t.m.rd .GLOBAL_BLOCK_LOCK = s.m.rd .GLOBAL_BLOCK_LOCK)) ∧
    (s.m.answers who = true →
      exec (.registerReadClear who off width) s = .next (s.onMach (regRead s.nv who off width)) ∧
      exec (.registerReadClear who 0x18 64) s =
        .next (s.onMach (fun m => (m.emit (.regRead 0x18 64 (m.rd .GLOBAL_BADACC_COUNT % 2 ^ 32))).wr .GLOBAL_BADACC_COUNT 0)))

/-- R11: a control-space access that is not 32 or 64 bits wide, or not naturally aligned, is answered with Unsupported Request and counted in GLOBAL_BADACC.COUNT, and changes nothing else, whatever its
sender may reach. -/
def Obligations.UnsupportedAccessesHaveNoEffect : Prop :=
  ∀ (s : State) (who : Requester) (off width v : Nat), ((width ≠ 32 ∧ width ≠ 64) ∨ off % (width / 8) ≠ 0) → s.m.answers who = true →
    exec (.registerWrite who off width v) s = .next (s.onMach (fun m => (m.emit (.unsupported off)).inc .GLOBAL_BADACC_COUNT)) ∧
    exec (.registerReadClear who off width) s = .next (s.onMach (fun m => (m.emit (.unsupported off)).inc .GLOBAL_BADACC_COUNT))

/-- R29: a 64-bit read of TIME_NOW gives the time base as it stands; a 32-bit read of the low half latches the high half for its requester; that requester's next 32-bit read of the high half gives
the latched value and drops it; without one, it gives the current high half. -/
def Obligations.TimeNowReadsAreConsistent : Prop :=
  ∀ (s : State) (who : Requester), s.m.answers who = true →
    exec (.registerReadClear who 0x00100000 64) s = .next (s.onMach (fun m => m.emit (.regRead 0x00100000 64 (m.time.ns % 2 ^ 64)))) ∧
    (∀ c ∈ [Instr.timeNowLowRead who, .registerReadClear who 0x00100000 32], exec c s = .next (s.onMach (fun m =>
      ({ m with time := m.time.setLatch who (some (m.time.ns / 2 ^ 32 % 2 ^ 32)) } : Mach).emit (.regRead 0x00100000 32 (m.time.ns % 2 ^ 32))))) ∧
    (∀ h, s.m.time.latch who = some h → exec (.registerReadClear who 0x00100004 32) s =
      .next (s.onMach (fun m => ({ m with time := m.time.setLatch who none } : Mach).emit (.regRead 0x00100004 32 h)))) ∧
    (s.m.time.latch who = none → exec (.registerReadClear who 0x00100004 32) s =
      .next (s.onMach (fun m => ({ m with time := m.time.setLatch who none } : Mach).emit (.regRead 0x00100004 32 (m.time.ns / 2 ^ 32 % 2 ^ 32)))))

/-- A tick boundary: the domains whose lead time ends in the running tick report ready, its trace records are written to the ring, and time goes to the next multiple of 100 ns where no load waits;
writes that waited apply, every tail is taken, the monitors look at their deadlines, and all queues are evaluated while the sequencer runs; in warm reset the always-on copy alone counts on. The first
tick after an open step's deadline is a miss: remembered, counted, its event raised, its actions fired. A started clock domain runs at the end of its lead time and not before, and the commands that
waited for a domain start (R28, R30, R48, R49, R112, R274). -/
def Obligations.TicksMissesAndReadyDomains : Prop :=
  ∀ (s : State) (p d : Nat),
    (s.m.awake = true → exec .tickBoundary s = .next (s.onMach (fun m =>
      let m := (List.range 16).foldl Mach.monitor (drainTrace 4096 false m.readyDue).nextTick.throttleCycles.applyPending.snapshot
      if m.seqAlive then m.evaluateAll else m))) ∧
    (s.m.time.loadReq = false → s.m.nextTick = { s.m with time := { s.m.time with ns := (s.m.time.ns / 100 + 1) * 100 } }) ∧
    (s.m.resets.cold = false → s.m.resets.warm ≠ none → s.m.time.loadReq = false →
      exec .tickBoundary s = .next (s.onMach (fun m => { m with time := { m.time with ns := (m.time.ns / 100 + 1) * 100 } }))) ∧
    (s.m.awake = true →
      (p < 16 → s.m.missDue p = true → exec (.stepDeadlineMiss p) s = .next (s.onMach (fun m =>
        (((m.setMon p { m.mon p with missed := true }).inc .SEQR_MON_MISSCOUNT 1 p).raiseEvent p (m.rd .SEQR_MON_MISSEV p)).fireActions p 2))) ∧
      (p < 16 → s.m.missDue p = false → exec (.stepDeadlineMiss p) s = .next s) ∧
      (d < 257 → (s.m.dom d).st = 1 → (s.m.dom d).readyAt ≤ s.m.tick → exec (.domainReady d) s = .next (s.onMach (fun m =>
        let m := m.setDom d { m.dom d with st := 2 }
        (m.sq.issued.filter (fun c => !c.started && c.result.isNone)).foldl (fun m c => m.startNext c.part c.queue) m))) ∧
      (d < 257 → (s.m.dom d).st ≠ 1 ∨ s.m.tick < (s.m.dom d).readyAt → exec (.domainReady d) s = .next s))


/-! ## Commands of the queues (files 04 and 10) -/

/-- A command of the sequencer's own that is due and passes the checks of R84 takes its slot and ends at once: NOP with ST_OK; WAIT with ST_OK when all five conditions hold, else with
ST_DEADLINE, PROGRESS the conditions met; PATCH with its two operations, ST_EMPTY when neither applied; MARK with its trace record; JUMP not taken on a zero count, else with its count lowered,
its register and tick base raised as asked, and the head at its target (R96 to R99). -/
def Obligations.SequencerCommandsAct : Prop :=
  ∀ (s : State) (p q : Nat) (raw c : Cmd), s.m.commandReady p q raw c = true →
    let m := s.m.joined p q c
    let x := s.m.joining p q c
    let ends (m' : Mach) (st n : Nat) : State := s.onMach (fun _ => (m'.setIssued { x with result := some st, progress := n }).completeNew x)
    let met := (c.waits.filter (m.waitMet p)).length
    let creg := bits c.p1 22 17
    let count := m.rd .SEQR_PARAM_VALUE p creg
    let lowered := if bit c.p1 16 then m.wr .SEQR_PARAM_VALUE (count - 1) p creg else m
    let raised := if bit c.p1 24 then lowered.wr .SEQR_PARAM_VALUE (lowered.rd .SEQR_PARAM_VALUE p (bits c.p1 30 25) + c.p3) p (bits c.p1 30 25) else lowered
    let based := if bit c.p1 31 then raised.wr .SEQR_QTBASE_TICK (raised.rd .SEQR_QTBASE_TICK p q + bits c.p2 47 0) p q else raised
    (c.opcode = 0x00 → exec (.nop p q raw) s = .next (ends m stOk 1)) ∧
    (c.opcode = 0x07 → exec (.wait p q raw) s = .next (ends m (if met = 5 then stOk else stDeadline) met)) ∧
    (c.opcode = 0x08 → bits c.p1 7 6 = 0 → bits c.p3 7 6 = 0 → exec (.patch p q raw) s = .next (ends m stEmpty 0)) ∧
    (c.opcode = 0x08 → bits c.p1 7 6 = 1 → bits c.p3 7 6 = 0 →
      exec (.patch p q raw) s = .next (ends (m.wr .SEQR_PARAM_VALUE c.p2 p (bits c.p1 5 0)) stOk 1)) ∧
    (c.opcode = 0x08 → bits c.p1 7 6 = 2 → bits c.p3 7 6 = 0 →
      exec (.patch p q raw) s = .next (ends (m.wr .SEQR_PARAM_VALUE (m.rd .SEQR_PARAM_VALUE p (bits c.p1 5 0) + c.p2) p (bits c.p1 5 0)) stOk 1)) ∧
    (c.opcode = 0x08 → bits c.p1 7 6 = 3 → bits c.p3 7 6 = 0 →
      exec (.patch p q raw) s = .next (ends (m.wr .SEQR_PARAM_VALUE (m.rd .SEQR_PARAM_VALUE p (bits c.p1 13 8)) p (bits c.p1 5 0)) stOk 1)) ∧
    (c.opcode = 0x08 → bits c.p1 7 6 = 0 → bits c.p3 7 6 = 1 →
      exec (.patch p q raw) s = .next (ends (m.wr .SEQR_PARAM_VALUE c.p4 p (bits c.p3 5 0)) stOk 1)) ∧
    (c.opcode = 0x0E → exec (.mark p q raw) s =
      .next (ends (m.trace 3 p q 0x0E c.tag (toBytes 8 c.p1 ++ toBytes 8 c.p2)) stOk (b2n (m.traced p 3 && m.traceRoom)))) ∧
    (c.opcode = 0x0F → bit c.p1 16 = true → count = 0 → exec (.jump p q raw) s = .next (ends m stOk 0)) ∧
    (c.opcode = 0x0F → bit c.p1 16 = false ∨ count ≠ 0 → exec (.jump p q raw) s = .next (ends (based.wr .SEQR_QHEAD_HEAD (bits c.p1 15 0) p q) stOk 1))

/-- An engine's command that is due and passes the checks takes its slot, starts the domains it needs on demand, and starts on its engine at once where every earlier command of its queue has
completed, its domains run, no unit is in reset and its partition may run; otherwise it waits, issued (R49, R67, R81, R91 to R99, R193, R201, R237, R263 to R270, R376 to R378). -/
def Obligations.EngineCommandsStart : Prop :=
  ∀ (s : State) (p q : Nat) (raw c : Cmd), s.m.commandReady p q raw c = true →
    let j := s.m.joined p q c
    let m := j.demand (j.needs p q c)
    let x := s.m.joining p q c
    let x' : Issued := { x with started := true }
    (m.oldest p q = some x → m.powered x = true → m.resets.units = [] → m.partRuns p = true →
      let runs (f : Mach → Mach) : State := s.onMach (fun _ => f (m.setIssued x'))
      (c.opcode = 1 → exec (.kernel p q raw) s = .next (runs (fun m => m.kernelStart x'))) ∧
      (c.opcode = 2 → exec (.stack p q raw) s = .next (runs (fun m => m.stackStart x'))) ∧
      (c.opcode = 3 → c.fill = false → c.amo = false → exec (.copy p q raw) s = .next (runs (fun m => m.copyStart x'))) ∧
      (c.opcode = 3 → c.fill = true → c.amo = false → exec (.copyFill p q raw) s = .next (runs (fun m => m.copyStart x'))) ∧
      (c.opcode = 3 → c.amo = true → exec (.copyAmo p q raw) s = .next (runs (fun m => m.copyAmoStart x'))) ∧
      (c.opcode = 5 → remoteRead c = false → exec (.remoteWrite p q raw) s = .next (runs (fun m => m.remoteWriteStart x'))) ∧
      (c.opcode = 5 → remoteRead c = true → exec (.remoteRead p q raw) s = .next (runs (fun m => m.remoteReadStart x'))) ∧
      (c.opcode = 6 → exec (.seal p q raw) s = .next (runs (fun m => m.sealStart x'))) ∧
      (c.opcode = 0xB → exec (.flush p q raw) s = .next (runs (fun m => m.flushStart x'))) ∧
      (c.opcode = 0xC → exec (.sample p q raw) s = .next (runs (fun m => m.sampleStart x'))) ∧
      (c.opcode = 0xD → c.p1 % 4 ≠ 2 → exec (.powerStart p q raw) s = .next (runs (fun m => m.powerStart x'))) ∧
      (c.opcode = 0xD → c.p1 % 4 = 2 → exec (.powerStop p q raw) s = .next (runs (fun m => m.powerStart x'))) ∧
      (c.opcode = 9 → seqOp c = 1 → exec (.build p q raw) s = .next (runs (fun m => m.seqStart x'))) ∧
      (c.opcode = 9 → seqOp c = 2 → exec (.emit p q raw) s = .next (runs (fun m => m.seqStart x'))) ∧
      (c.opcode = 0xA → pageOp c = 1 → exec (.pageAllocate p q raw) s = .next (runs (fun m => m.pageStart x'))) ∧
      (c.opcode = 0xA → pageOp c = 2 → exec (.pageFree p q raw) s = .next (runs (fun m => m.pageStart x'))) ∧
      (c.opcode = 0xA → pageOp c = 3 → exec (.pageForget p q raw) s = .next (runs (fun m => m.pageStart x')))) ∧
    (c.opcode = 1 → m.oldest p q = some x → m.powered x = false → exec (.kernel p q raw) s = .next (s.onMach (fun _ => m))) ∧
    (c.opcode = 2 → m.oldest p q = some x → m.powered x = false → exec (.stack p q raw) s = .next (s.onMach (fun _ => m)))

/-- A session operation that starts acts on its items in order and ends with the status, progress and item statuses they gave (R263, R264). -/
def Obligations.SessionCommandsActOnTheirItems : Prop :=
  ∀ (s : State) (p q : Nat) (raw c : Cmd), s.m.commandReady p q raw c = true → c.opcode = 9 →
    let j := s.m.joined p q c
    let m := j.demand (j.needs p q c)
    let x := s.m.joining p q c
    m.oldest p q = some x → m.powered x = true → m.resets.units = [] → m.partRuns p = true →
      let r := seqItems p (seqOp c) x.id c.p2 c.p3 0 (m.setIssued { x with started := true })
      let t : State := s.onMach (fun _ => r.1.setIssued { (r.1.issuedOf x.id).getD { x with started := true } with
        result := some (itemsStatus r.2), progress := itemsDone r.2, itemSt := r.2.map some, items := c.p4 })
      (seqOp c = 3 → exec (.seqAdmit p q raw) s = .next t) ∧
      (seqOp c = 4 → exec (.activate p q raw) s = .next t) ∧
      (seqOp c = 5 → exec (.hold p q raw) s = .next t) ∧
      (seqOp c = 6 → exec (.release p q raw) s = .next t) ∧
      (seqOp c = 7 → exec (.park p q raw) s = .next t) ∧
      (seqOp c = 8 → exec (.retire p q raw) s = .next t) ∧
      (seqOp c = 9 → exec (.free p q raw) s = .next t) ∧
      (seqOp c = 10 → exec (.pend p q raw) s = .next t) ∧
      (seqOp c = 11 → exec (.shed p q raw) s = .next t) ∧
      (seqOp c = 12 → exec (.setdl p q raw) s = .next t)

/-- What each session operation makes of an entry of its partition in a state that allows it, with the item's reserved fields zero; any other item leaves the table and reports why (R264). -/
def Obligations.SessionItemsChangeTheirEntry : Prop :=
  ∀ (m : Mach) (p op : Nat) (b : Bytes), 3 ≤ op → op ≤ 12 →
    let i := if op = 3 then field b 54 2 else field b 0 2
    let e := m.sess i
    (m.inRange p i = false → m.seqItem p op b = (m, stItemSession)) ∧
    (m.inRange p i = true → seqAllowed op e = false → m.seqItem p op b = (m, stSessionState)) ∧
    (m.inRange p i = true → seqAllowed op e = true → seqItemReservedOk op b = false → m.seqItem p op b = (m, stItemFormat)) ∧
    (m.inRange p i = true → seqAllowed op e = true → seqItemReservedOk op b = true →
      (m.seqItem p op b).2 = stOk ∧
      (op = 4 → (m.seqItem p op b).1 = m.setSess i { e with state := 2 }) ∧
      (op = 5 → (m.seqItem p op b).1 = m.setSess i { e with state := 3, poolHeld := false }) ∧
      (op = 6 → (m.seqItem p op b).1 = m.setSess i { e with state := 2, poolHeld := false }) ∧
      (op = 7 → (m.seqItem p op b).1 = m.setSess i { e with state := 4, poolHeld := false }) ∧
      (op = 8 → (m.seqItem p op b).1 = m.setSess i { e with state := 5 }) ∧
      (op = 9 → (m.seqItem p op b).1 = m.setSess i SEntry.free) ∧
      (op = 10 → (m.seqItem p op b).1 = m.setSess i { e with pend := bit (field b 2 1) 0 }) ∧
      (op = 11 → (m.seqItem p op b).1 = m.setSess i { e with shed := field b 2 1 % 8 }) ∧
      (op = 12 → (m.seqItem p op b).1 = m.setSess i { e with deadline := field b 8 8 % 2 ^ 48, prio := field b 2 1 }) ∧
      (op = 3 → ((m.seqItem p op b).1.sess i).state = 1 ∧ ((m.seqItem p op b).1.sess i).id = field b 0 4 ∧ ((m.seqItem p op b).1.sess i).part = p ∧
        ∀ k, k ≠ i → (m.seqItem p op b).1.sess k = m.sess k))

/-- A KERNEL that starts runs every physical core of its group from bundle P1, with P2, P3 and P4 in s0, s1 and s2, and every other register zero; one whose group has lost a core since its issue starts
none and ends with ST_CORE_ABSENT (R139, R149). -/
def Obligations.KernelStartsEveryCoreOfItsGroup : Prop :=
  ∀ (m : Mach) (c : Issued) (n : Nat),
    ((∃ l ∈ m.groupPhys c.part (c.queue - 4), l = none) → m.kernelStart c = m.setIssued { c with result := some stCoreAbsent }) ∧
    ((∀ l ∈ m.groupPhys c.part (c.queue - 4), l ≠ none) → n ∈ m.kernelCores c →
    let k := (m.kernelStart c).core n
    k.run = true ∧ k.kernel = some c.id ∧ k.d.pc = c.cmd.p1 % 4096 ∧ k.d.s 0 = BitVec.ofNat 64 c.cmd.p2 ∧ k.d.s 1 = BitVec.ofNat 64 c.cmd.p3 ∧
      k.d.s 2 = BitVec.ofNat 64 c.cmd.p4 ∧ (∀ r, 2 < r → k.d.s r = 0) ∧ k.d.queues = [] ∧ k.d.acc = [])

/-- COMMAND_COMPLETION: where the oldest command of a queue has ended and the one behind it has not, that command completes with its status and the next of its queue may start; an EMIT that serves its
rings forms and sends its records as it completes, in list order, closes the step, and takes its status from its items; a queue whose oldest command still runs, or that has none, is left as it is
(R67, R100, R101, R270). -/
def Obligations.CompletionRetiresTheOldestCommand : Prop :=
  ∀ (s : State) (p q : Nat), p < 16 → q < 20 → s.m.awake = true →
    (∀ (c : Issued) (st : Nat), s.m.oldest p q = some c → c.result = some st → c.cmd.opcode ≠ 9 ∨ c.extra ≠ [2] → (∀ d, (s.m.complete c st).oldest p q = some d → d.result = none) →
      exec (.commandCompletion p q) s = .next (s.onMach (fun m => (m.complete c st).startNext p q))) ∧
    (∀ (c : Issued) (st : Nat), s.m.oldest p q = some c → c.result = some st → c.cmd.opcode = 9 → c.extra = [2] →
      let r := emitAll c.part c.cmd.p2 c.cmd.p3 c.id true (s.m.mon c.part).list 0 s.m
      let m := (r.2.1.foldl (fun m rec => m.sendRecord c.part rec) r.1).closeStep c.part
      let c' : Issued := { (m.issuedOf c.id).getD c with result := some (itemsStatus r.2.2), progress := itemsDone r.2.2, itemSt := r.2.2.map some, items := c.cmd.p4, extra := [1] }
      (∀ d, (m.complete c' (itemsStatus r.2.2)).oldest p q = some d → d.result = none) →
        exec (.commandCompletion p q) s = .next (s.onMach (fun _ => (m.complete c' (itemsStatus r.2.2)).startNext p q))) ∧
    ((∀ c, s.m.oldest p q = some c → c.result = none) → exec (.commandCompletion p q) s = .next s)

/-! ## Stacks (files 08 and 09) -/

/-- The first waiting item of its kind that can be reached begins: one whose page list is uncorrectable, or that fails a check, finishes with that status; an ATTEND reads its queries and takes its
first bank, and so does a PGEMV; an APPEND reads its input and takes the page of its list entry or pops one: it waits for that page's bank, or takes it, and then its write step writes its row, the
page's fill and, on a new page, the list entry, and its record to OUT (R202 to R206, R242, R247, R248, R251). -/
def Obligations.WorkItemsBegin : Prop :=
  ∀ (s : State) (n : Nat) (it : Item), s.m.awake = true → n < 12 →
    let pages := s.m.itemPages it
    let b := pageBank (pages.headD 0)
    let first : Item := { it with pages := pages, page := 0, phase := .onBank b, work := pageCost { it with pages := pages, page := 0, phase := .onBank b } 0 false }
    (∀ st, s.m.listUe it = none → s.m.itemCheck it = some st →
      (s.m.nextItem? n 1 = some it → exec (.attendItem n) s = .next (s.onMach (fun m => m.finishItem it (some st)))) ∧
      (s.m.nextItem? n 2 = some it → exec (.pgemvItem n) s = .next (s.onMach (fun m => m.finishItem it (some st)))) ∧
      (s.m.nextItem? n 3 = some it → exec (.appendItem n) s = .next (s.onMach (fun m => m.finishItem it (some st))))) ∧
    (∀ a, s.m.listUe it = some a →
      (s.m.nextItem? n 1 = some it → exec (.attendItem n) s = .next (s.onMach (fun m => ((m.noteRead true a 4).itemUe it a).finishItem it (some stPoison)))) ∧
      (s.m.nextItem? n 2 = some it → exec (.pgemvItem n) s = .next (s.onMach (fun m => ((m.noteRead true a 4).itemUe it a).finishItem it (some stPoison)))) ∧
      (s.m.nextItem? n 3 = some it → exec (.appendItem n) s = .next (s.onMach (fun m => ((m.noteRead true a 4).itemUe it a).finishItem it (some stPoison))))) ∧
    (s.m.listUe it = none → s.m.itemCheck it = none →
      (s.m.nextItem? n 2 = some it → it.desc.kind ≠ 1 → exec (.pgemvItem n) s = .next (s.onMach (fun m => (m.setItem { first with acc := startRows first [] }).occupy first b))) ∧
      (∀ m1 bs, s.m.nextItem? n 1 = some it → it.desc.kind = 1 → s.m.readIn first it.inA (inLen it.desc it.fmt it.rows) = (m1, .ok bs) →
        exec (.attendItem n) s = .next (s.onMach (fun _ => (m1.setItem { first with acc := startRows first bs }).occupy first b))) ∧
      (∀ m1 bs m2 st, s.m.nextItem? n 3 = some it → s.m.readIn it it.inA (inLen it.desc it.fmt it.rows) = (m1, .ok bs) → m1.appendPage n it = (m2, .error st) →
        exec (.appendItem n) s = .next (s.onMach (fun _ => m2.finishItem { it with unheldPop := st == stPoolEmpty && (m2.sess it.session).state != 3 } (some st)))) ∧
      (∀ m1 bs m2 g blank popped, s.m.nextItem? n 3 = some it → s.m.readIn it it.inA (inLen it.desc it.fmt it.rows) = (m1, .ok bs) →
        m1.appendPage n it = (m2, .ok (g, blank, popped)) →
        let it0 : Item := { it with pages := [g], page := 0, inB := bs, blank := blank, popped := popped }
        let it1 : Item := { it0 with work := m2.appendCost n it0 }
        (m2.itemTurn it1 (pageBank g) = false ∨ m2.bankOpen n (pageBank g) = false →
          exec (.appendItem n) s = .next (s.onMach (fun _ => m2.setItem { it1 with phase := .staged (pageBank g) }))) ∧
        (m2.itemTurn it1 (pageBank g) = true → m2.bankOpen n (pageBank g) = true →
          exec (.appendItem n) s = .next (s.onMach (fun _ => ((m2.setItem { it1 with phase := .onBank (pageBank g) }).occupy it1 (pageBank g)).segmentEnd n (pageBank g) 64))) ∧
        (it.failed = none → it.stopped = false →
          let k := it.len / it.fmt.tpp
          let slot := it.len % it.fmt.tpp
          let a := pageAddr n g
          let ws := appendWrites it.fmt a slot bs ++ [(a + 7680 + 480, toBytes 1 (slot + 1))] ++
            (if blank then [(a + 7680 + 481, toBytes 1 it.fmt.fmtid ++ toBytes 2 it.session ++ toBytes 4 k), (a + 7680 + 488, toBytes 4 (bits it.root 34 6))] else []) ++
            (if popped then [(it.root + 4 * k, toBytes 4 (pageEntry g))] else [])
          ∀ m3 : Mach,
          let w := ws.foldl (fun (r : Mach × Bool) x => ((r.1.writeDram x.1 x.2).1, r.2 || (r.1.writeDram x.1 x.2).2)) (m3, false)
          let o := w.1.write it.part true it.outA (appendRecord (pageEntry g) k (slot + 1) popped)
          m3.appendEnds n it1 = if w.2 || o.2 then (o.1.itemUe it1 a).finishItem it1 (some stPoison) else o.1.finishItem it1 none)))

/-- How an item goes from bank to bank: the item first in order whose record is staged at an open bank takes it, and ends with ST_POISON where its record there is uncorrectable; the record that may
arrive and asked first arrives at the bank of its next page, loaded or staged; a segment does the cycles of work it has: what is left of a page's work stays for the next segment, and at a page's
end the item starts its next page here, sends its record to the next bank, or ends; an APPEND's write step runs whole in a segment it fits (R205, R208, R210, R211, R244, R254). -/
def Obligations.ItemsMoveFromBankToBank : Prop :=
  ∀ (s : State) (n b : Nat) (it : Item), s.m.awake = true → n < 12 → b < 512 →
    (s.m.items.find? (s.m.mayTake n) = some it → it.phase = .staged b →
      (((s.m.bank n b).staged == some it.id) = false →
        exec (.itemBankTake n) s = .next (s.onMach (fun m => (m.setItem { it with phase := .onBank b }).occupy it b))) ∧
      ((s.m.bank n b).staged = some it.id → (s.m.bank n b).scratchWrong = true → it.failed = none →
        exec (.itemBankTake n) s = .next (s.onMach (fun m =>
          let m := m.itemUe it (pageAddr n (nthD it.pages it.page 0))
          ((m.setBank n b { m.bank n b with scratchWrong := false }).setItem { it with phase := .onBank b, failed := some stPoison }).occupy it b)))) ∧
    (s.m.firstRecord n = some it → s.m.mayArrive n it = true ∧ it ∈ s.m.items ∧ ∀ x ∈ s.m.items, s.m.mayArrive n x = true → it.asked ≤ x.asked) ∧
    (∀ b', s.m.firstRecord n = some it → it.phase = .sending b → b' = pageBank (nthD it.pages it.page 0) →
      exec (.recordArrival n) s = .next (s.onMach (fun m =>
        let m := m.setBank n b { m.bank n b with sending := none }
        (m.setItem { it with phase := .staged b' }).setBank n b' (if m.direct n it then m.bank n b' else { m.bank n b' with staged := some it.id })))) ∧
    ((s.m.bank n b).occupant = some it.id → s.m.itemOf it.id = some it → (s.m.bank n b).phase = .segment → s.m.running (quadDom n (b / 128)) = true →
      let left := (s.m.bank n b).left
      let folded := (s.m.foldPage it).1
      let row := nthD (s.m.foldPage it).2.pages ((s.m.foldPage it).2.page) 0 % 8192 * 4 + 3
      let done := folded.setBank n b { folded.bank n b with engineRow := some row }
      let it' : Item := { (s.m.foldPage it).2 with page := (s.m.foldPage it).2.page + 1 }
      let goesOn (m : Mach) : Host.Outcome State Fault Refusal := .next (s.onMach (fun _ => ((seqWork n b 255 (left - it.work) m).yieldPoint n b).afterSegment n b))
      (it.desc.kind ≠ 3 → left < it.work →
        exec (.bankYieldPoint n b) s = .next (s.onMach (fun m => ((m.setItem { it with work := it.work - left }).yieldPoint n b).afterSegment n b))) ∧
      (it.desc.kind ≠ 3 → it.work ≤ left → it'.pages[it'.page]? = none → exec (.bankYieldPoint n b) s = goesOn ((done.leaveBank n b none).endItem it')) ∧
      (∀ g, it.desc.kind ≠ 3 → it.work ≤ left → it'.pages[it'.page]? = some g → pageBank g = b →
        exec (.bankYieldPoint n b) s = goesOn (done.setItem { it' with work := pageCost it' it'.page false })) ∧
      (∀ g, it.desc.kind ≠ 3 → it.work ≤ left → it'.pages[it'.page]? = some g → pageBank g ≠ b →
        exec (.bankYieldPoint n b) s =
          goesOn (({ done.setItem { it' with phase := .sending b, work := pageCost it' it'.page true, asked := done.nextItem } with nextItem := done.nextItem + 1 } : Mach).leaveBank n b (some it'.id))) ∧
      (it.desc.kind = 3 → left < it.work → left ≠ 64 → exec (.bankYieldPoint n b) s = .next (s.onMach (fun m => (m.yieldPoint n b).afterSegment n b))) ∧
      (it.desc.kind = 3 → it.work ≤ left ∨ left = 64 →
        exec (.bankYieldPoint n b) s = goesOn (((s.m.setBank n b { s.m.bank n b with engineRow := some (nthD it.pages 0 0 % 8192 * 4 + 3) }).leaveBank n b none).appendEnds n it)) ∧
      ((s.m.bank n b).goingOffline = false → it.failed ≠ some stReset → s.m.yieldPoint n b = s.m))

/-- A window or idle period: accesses of the die's classes, then the host's, are served in order while they fit in its cycles (80 in a throttled bank's window, else 8, one per 32 bytes); the waits of those
served are counted in HOLDMAX, the first host access left for the first time in HOSTDEFER; a segment of an occupied bank goes on undisturbed, and one follows every window (R210, R212, R213, R223). -/
def Obligations.ServicePeriodsServeAccesses : Prop :=
  ∀ (s : State) (n b : Nat), s.m.awake = true → n < 12 → b < 512 →
    let k := s.m.bank n b
    let occupied := k.occupant.isSome
    let order := k.waits.filter (fun w => !w.hostClass) ++ k.waits.filter (·.hostClass)
    let r := serveWaits order (if occupied && k.throttled then 80 else 8) s.m
    let served := order.take (order.length - r.2.length)
    let held := served.foldl (fun m w => m.wr .STACK_ACC_HOLDMAX (max (m.rd .STACK_ACC_HOLDMAX n) (min w.age 0xFFFF)) n) r.1
    let late := r.2.find? (fun w => w.hostClass && !w.deferred)
    (k.phase = .segment → exec (.bankServicePeriod n b) s = .next s) ∧
    (k.phase ≠ .segment → occupied = false → exec (.bankServicePeriod n b) s = .next (s.onMach (fun _ =>
      drainTrace 4096 false (held.setBank n b { held.bank n b with waits := r.2.map (fun w => { w with age := w.age + 8 }), phase := .idle })))) ∧
    (k.phase ≠ .segment → occupied = true → exec (.bankServicePeriod n b) s = .next (s.onMach (fun _ =>
      let m := if late.isSome then held.inc .STACK_ACC_HOSTDEFER 1 n else held
      let waits := r.2.map (fun w => { w with age := w.age + (if k.throttled then 144 else 72), deferred := w.deferred || late == some w })
      let m := drainTrace 4096 false (m.setBank n b { m.bank n b with waits := waits, phase := .window })
      m.setBank n b { m.bank n b with phase := .segment, left := 64 }))) ∧
    (∀ (w : BankAccess) (rest : List BankAccess) (left : Nat) (m : Mach),
      serveWaits [] left m = (m, []) ∧
      ((w.len + 31) / 32 ≤ left → serveWaits (w :: rest) left m = serveWaits rest (left - (w.len + 31) / 32) (m.serveAccess w)) ∧
      (left < (w.len + 31) / 32 → serveWaits (w :: rest) left m = (m, w :: rest)))

/-- A refresh slot takes the 128 banks of its quadrant and no other: each running segment ends there, and each bank then holds no open row, while its accesses wait on; where no bank of the quadrant is in a
segment it is no more than that; the calendar follows the 85 °C flag; the throttle flag sets once, is counted and reported, and takes commands on the stack's engines out of the envelope, and clears
(R45, R197, R214, R223, R224). -/
def Obligations.RefreshAndThrottle : Prop :=
  ∀ (s : State) (n q : Nat), n < 12 → q < 4 →
    exec (.refreshSlot n q) s = .next (s.onMach (fun m => (List.range 128).foldl (fun m i =>
      let m := if (m.bank n (128 * q + i)).phase = .segment then m.draw.2.segmentEnd n (128 * q + i) (m.draw.1 % max 1 (m.bank n (128 * q + i)).left) else m
      m.setBank n (128 * q + i) (m.bank n (128 * q + i)).slotted) m)) ∧
    (∃ t, exec (.refreshSlot n q) s = .next t ∧ ((∀ b, b < 512 → b / 128 = q → (s.m.bank n b).phase ≠ .segment) → ∀ k b, b < 512 → t.m.bank k b =
      if k = n ∧ b / 128 = q then { s.m.bank k b with phase := .slot, engineRow := none, accessRow := none, waits := (s.m.bank k b).waits.map (fun w => { w with age := w.age + 112 }) }
      else s.m.bank k b)) ∧
    (∀ hot, exec (.refreshCalendarChange n hot) s = .next (s.onMach (fun m => m.setStack n { m.stack n with hot := hot }))) ∧
    exec (.stackThrottleClear n) s = .next (s.onMach (fun m => m.setStack n { m.stack n with throt := false })) ∧
    (s.m.awake = true → (s.m.stack n).throt = true → exec (.stackThrottleOnset n) s = .next s) ∧
    (s.m.awake = true → (s.m.stack n).throt = false → exec (.stackThrottleOnset n) s = .next (s.onMach (fun m =>
      (((m.setStack n { m.stack n with throt := true }).inc .STACK_TEMP_COUNT 1 n).post ⟨0, 0, 0, 9, 2 + n, fkThrottle⟩).throttleOut n)))

/-- Forgets and pool additions: STACK[n].FORGET.GO starts a forget of a range inside the stack and is refused otherwise; its end clears the written bits and shows DONE, with BUSY clear; ADD.GO,
absent until firmware has started, checks the range and forgets it, and its end pushes each page of the range in ascending order (R18, R221, R235). -/
def Obligations.ForgetsAndPoolAdds : Prop :=
  ∀ (s : State) (who : Requester) (p n x y : Nat), p < 16 → n < 12 →
    let fg := (s.m.wr .STACK_FORGET_BASE x n).wr .STACK_FORGET_LEN y n
    let base := fg.rd .STACK_FORGET_BASE n
    let len := fg.rd .STACK_FORGET_LEN n
    let ad := (s.m.wr .SEC_POOL_ADD_FIRST x p n).wr .SEC_POOL_ADD_COUNT y p n
    let first := ad.rd .SEC_POOL_ADD_FIRST p n
    let count := ad.rd .SEC_POOL_ADD_COUNT p n
    (s.m.serves who (0x02000038 + n * 0x100000) = true →
      (fg.flag .STACK_FORGETST_BUSY n = false → len ≠ 0 → base + len ≤ 2 ^ 25 → exec (.stackForgetGo who n x y) s =
        .next (s.onMach (fun _ => { (fg.invalidateGranules n base len).wr .STACK_FORGETST_BUSY 1 n with forgets := fg.forgets ++ [⟨n, base, len, .register⟩] }))) ∧
      (fg.flag .STACK_FORGETST_BUSY n = true ∨ len = 0 ∨ 2 ^ 25 < base + len → exec (.stackForgetGo who n x y) s =
        .next (s.onMach (fun _ => (fg.wr .STACK_FORGETST_REFUSED 1 n).inc .GLOBAL_BADACC_COUNT)))) ∧
    (∀ rest, s.m.awake = true → s.m.forgets = ⟨n, x, y, .register⟩ :: rest → exec (.forgetDone n) s =
      .next (s.onMach (fun m => (((({ m with forgets := rest } : Mach).invalidateGranules n x y).clearGranules n x y).wr .STACK_FORGETST_BUSY 0 n).wr .STACK_FORGETST_DONE 1 n))) ∧
    (s.m.serves who (0x00D00028 + p * 0x10000 + n * 0x100) = true → s.m.firmware = false → exec (.poolAddGo who p n x y) s = .next (s.onMach Mach.badAcc)) ∧
    (s.m.serves who (0x00D00028 + p * 0x10000 + n * 0x100) = true → s.m.firmware = true →
      (ad.addOf p n = none → ad.flag .SEC_POOL_CFG_ENABLE p n = true → count ≠ 0 → first + count ≤ 4194304 → (∀ i < count, ad.allowedRW p (pageAddr n (first + i)) 8192 = true) →
        ad.rd .SEC_POOL_COUNT_FREE p n + count ≤ 2 ^ ad.rd .SEC_POOL_CFG_LOG2 p n →
        let m := ad.forgetNow n (pageGranule first) (8 * count)
        exec (.poolAddGo who p n x y) s = .next (s.onMach (fun _ => { m.wr .SEC_POOL_ADDST_BUSY 1 p n with adds := (poolKey p n, first, count) :: m.adds }))) ∧
      (ad.flag .SEC_POOL_CFG_ENABLE p n = false → exec (.poolAddGo who p n x y) s =
        .next (s.onMach (fun _ => (ad.wr .SEC_POOL_ADDST_REFUSED 1 p n).inc .GLOBAL_BADACC_COUNT)))) ∧
    (s.m.awake = true → s.m.addOf p n = some (x, y) → exec (.poolAddDone p n) s = .next (s.onMach (fun m =>
      (((List.range y).foldl (fun m i => Mach.pushPage m p n (x + i)) { m with adds := m.adds.filter (fun a => a.1 != poolKey p n) }).wr .SEC_POOL_ADDST_BUSY 0 p n).wr .SEC_POOL_ADDST_DONE 1 p n)))

/-! ## Cores (files 05 and 06) -/

/-- A scalar operation whose turn has come in its bundle (s is the block once the bundle has begun) puts its result on its way to register D, due one cycle later (three for sc.mul, four for sc.ldc), and the bundle goes on (R124, R125). -/
def Obligations.ScalarResultsComeDue : Prop :=
  ∀ (s0 : State) (n w : Nat), s0.m.slotReady n 2 w = true →
    let s := s0.onMach (fun m => m.begun n)
    let c := s.m.core n
    let a := c.d.s (wA w)
    let b := c.d.s (wB w)
    let gives (m : Mach) (lat : Nat) (v : Word64) : State :=
      s.onMach (fun _ => (m.setD n { c.d with pend := c.d.pend ++ [⟨wD w, v, c.cycle, c.cycle + lat⟩] }).endSlot n 2)
    (w % 256 = 0x01 → exec (.scAdd n) s0 = .next (gives s.m 1 (a + b))) ∧
    (w % 256 = 0x02 → exec (.scAddi n) s0 = .next (gives s.m 1 (a + BitVec.ofInt 64 (wImm w)))) ∧
    (w % 256 = 0x03 → exec (.scSub n) s0 = .next (gives s.m 1 (a - b))) ∧
    (w % 256 = 0x04 → exec (.scMul n) s0 = .next (gives s.m 3 (a * b))) ∧
    (w % 256 = 0x05 → exec (.scAnd n) s0 = .next (gives s.m 1 (a &&& b))) ∧
    (w % 256 = 0x06 → exec (.scOr n) s0 = .next (gives s.m 1 (a ||| b))) ∧
    (w % 256 = 0x07 → exec (.scXor n) s0 = .next (gives s.m 1 (a ^^^ b))) ∧
    (w % 256 = 0x08 → exec (.scShl n) s0 = .next (gives s.m 1 (a <<< (b.toNat % 64)))) ∧
    (w % 256 = 0x09 → exec (.scShr n) s0 = .next (gives s.m 1 (a >>> (b.toNat % 64)))) ∧
    (w % 256 = 0x0A → exec (.scSar n) s0 = .next (gives s.m 1 (a.sshiftRight (b.toNat % 64)))) ∧
    (w % 256 = 0x0B → exec (.scLi n) s0 = .next (gives s.m 1 (BitVec.ofInt 64 (wImm w)))) ∧
    (w % 256 = 0x0C → ∀ off : Nat, (a.toInt + wImm w) % 2 ^ 64 = off → off ≤ 0x1FFFF8 → off % 8 = 0 →
      (s.m.readUe false (coreAddr n off) 8 = false →
        exec (.scLdc n) s0 = .next (gives (s.m.noteRead false (coreAddr n off) 8) 4 (BitVec.ofNat 64 (s.m.readNat false (coreAddr n off) 8)))) ∧
      (s.m.readUe false (coreAddr n off) 8 = true → exec (.scLdc n) s0 = .next (s.onMach (fun m => (m.noteRead false (coreAddr n off) 8).trapBundle n fkDataUe)))) ∧
    (w % 256 = 0x0D → exec (.scCmplt n) s0 = .next (gives s.m 1 (if a.toInt < b.toInt then 1 else 0))) ∧
    (w % 256 = 0x0E → exec (.scCmpeq n) s0 = .next (gives s.m 1 (if a = b then 1 else 0))) ∧
    (w % 256 = 0x1A → ∀ k l, s.m.kernelOf n = some k → l = (s.m.map n).logical → exec (.scMyid n) s0 = .next (gives s.m 1 (BitVec.ofNat 64
      (l + (s.m.groupLogical k.part (k.queue - 4)).findIdx (· == l) * 2 ^ 8 + (s.m.groupLogical k.part (k.queue - 4)).length % 256 * 2 ^ 16 + n * 2 ^ 24)))) ∧
    (w % 256 = 0x1B → ∀ k, s.m.physOf (a.toNat % 256) = some k → exec (.scPeer n) s0 = .next (gives s.m 1 (BitVec.ofNat 64 k))) ∧
    (w % 256 = 0x1B → s.m.physOf (a.toNat % 256) = none → exec (.scPeer n) s0 = .next (gives s.m 1 0xFF))

/-- The scalar operations of control: branches, loops, queue set-up and rewind, the progress register, the background fill, the format registers and the one atomic a core may have
outstanding, each with its effect and, where its rule names one, its trap (R116, R120, R126, R127, R128, R140, R145). -/
def Obligations.ScalarControlActs : Prop :=
  ∀ (s0 : State) (n w : Nat), s0.m.slotReady n 2 w = true →
    let s := s0.onMach (fun m => m.begun n)
    let d := (s.m.core n).d
    let a := d.s (wA w)
    let sets (d : CoreData) : State := s.onMach (fun m => (m.setD n d).endSlot n 2)
    let traps (k : Nat) : State := s.onMach (fun m => m.trapBundle n k)
    let taken := { d with nextPc := some (wTarget w), bubble := 2, loops := d.loops.dropWhile (fun l => !(decide (l.first ≤ wTarget w) && decide (wTarget w ≤ l.last))) }
    (w % 256 = 0x10 → exec (.scBr n) s0 = .next (sets taken)) ∧
    (w % 256 = 0x11 → exec (.scBz n) s0 = .next (sets (if a = 0 then taken else d))) ∧
    (w % 256 = 0x12 → exec (.scBnz n) s0 = .next (sets (if a = 0 then d else taken))) ∧
    (w % 256 = 0x13 → a.toNat ≠ 0 → d.loops.length < 4 → exec (.scLoop n) s0 =
      .next (sets { d with nextPc := some ((d.pc + 1) % 4096), loops := ⟨(d.pc + 1) % 4096, wTarget w, a.toNat - 1⟩ :: d.loops })) ∧
    (w % 256 = 0x13 → a.toNat ≠ 0 → 4 ≤ d.loops.length → exec (.scLoop n) s0 = .next (traps fkLoopDepth)) ∧
    (w % 256 = 0x13 → a.toNat = 0 → exec (.scLoop n) s0 =
      .next (sets { d with nextPc := some (loopEnd (wTarget w) d.loops).1, loops := (loopEnd (wTarget w) d.loops).2 })) ∧
    (w % 256 = 0x18 → ∀ d', d.qcfg (wD w) a.toNat = some d' → exec (.scQcfg n) s0 = .next (sets d')) ∧
    (w % 256 = 0x18 → d.qcfg (wD w) a.toNat = none → exec (.scQcfg n) s0 = .next (traps fkQCfg)) ∧
    (w % 256 = 0x19 → 0 ≤ wImm w → (wImm w).toNat ≤ (d.queue (wD w)).rew →
      exec (.scQrew n) s0 = .next (sets (d.setQueue (wD w) ((d.queue (wD w)).rewind (wImm w).toNat)))) ∧
    (w % 256 = 0x19 → 0 ≤ wImm w → (d.queue (wD w)).rew < (wImm w).toNat → exec (.scQrew n) s0 = .next (traps fkQRewind)) ∧
    (w % 256 = 0x1C → exec (.scSetprog n) s0 = .next (sets { d with prog := a.toNat % 2 ^ 48 })) ∧
    (w % 256 = 0x1D → 0 ≤ wImm w → fillBad a.toNat (d.s (wB w)).toNat (wImm w).toNat = false →
      exec (.scIfill n) s0 = .next (sets { d with ifill := d.ifill ++ [⟨a.toNat, (d.s (wB w)).toNat, (wImm w).toNat⟩] })) ∧
    (w % 256 = 0x1D → wImm w < 0 ∨ fillBad a.toNat (d.s (wB w)).toNat (wImm w).toNat = true → exec (.scIfill n) s0 = .next (traps fkQCfg)) ∧
    (w % 256 = 0x1E → pairOk a.toNat = true → exec (.scMxfmt n) s0 = .next (sets { d with mfNext := d.mfNext ++ [(bits w 24 23, a.toNat)] })) ∧
    (w % 256 = 0x1E → pairOk a.toNat = false → exec (.scMxfmt n) s0 = .next (traps fkMxFormat)) ∧
    (w % 256 = 0x1F → d.amo = none → exec (.scAmo n) s0 =
      .next (sets { d with amo := some ⟨(s.m.core n).cycle, wD w, a.toNat, bits w 25 23, bit w 26, (d.s (wB w)).toNat, (d.s (wD w)).toNat⟩ })) ∧
    (w % 256 = 0x1F → ∀ x, d.amo = some x → exec (.scAmo n) s0 = .next (traps fkAmoBusy))

/-- A sync operation lets its bundle go on once its condition holds, and otherwise costs a cycle that counts as stalled and in which the units go on (R115, R138). -/
def Obligations.SyncOperationsWait : Prop :=
  ∀ (s0 : State) (n w : Nat), s0.m.slotReady n 1 w = true →
    let s := s0.onMach (fun m => m.begun n)
    let c := s.m.core n
    let d := c.d
    let goes (cond : Prop) [Decidable cond] : State :=
      s.onMach (fun m => if cond then m.endSlot n 1 else (((m.setCore n { c with cycle := c.cycle + 1 }).incMod .CORE_STALLED_COUNT 1 n).settle n).pump n)
    let idle := d.loads = [] ∧ d.stores = [] ∧ d.macRun = none ∧ d.macWait = none ∧ d.drainRun = none ∧ d.drainWait = none ∧ d.vtoks = [] ∧ d.ifill = []
    (w % 256 = 0x01 → exec (.syAwait n) s0 = .next (goes (wN w ≤ (d.queue (wX w)).occ ∧ ∀ i < wN w, (d.queue (wX w)).readyAt ((d.queue (wX w)).popped + i) = true))) ∧
    (w % 256 = 0x02 → exec (.sySpace n) s0 = .next (goes (wN w ≤ (d.queue (wX w)).free))) ∧
    (w % 256 = 0x03 → exec (.syStw n) s0 = .next (goes ((d.stores.filter (fun x => x.ctr == wX w % 8)).length ≤ wN w))) ∧
    (w % 256 = 0x04 → exec (.syLdw n) s0 = .next (goes (d.loads.length ≤ wN w))) ∧
    (w % 256 = 0x05 → exec (.syMx n) s0 = .next (goes (d.macWait = none))) ∧
    (w % 256 = 0x06 → exec (.syDr n) s0 = .next (goes (d.drainWait = none))) ∧
    (w % 256 = 0x07 → exec (.syIfill n) s0 = .next (goes (d.ifill = []))) ∧
    (w % 256 = 0x09 → exec (.syCyc n) s0 = .next (goes (wN w ≤ c.cycle - c.syncFrom))) ∧
    (w % 256 = 0x0C → exec (.syIdle n) s0 = .next (goes idle)) ∧
    (w % 256 = 0x0D → exec (.syAmo n) s0 = .next (goes (d.amo = none)))

/-- sy.bar holds the core at its number until its group is released, which happens once every core of the group stands at one number; sy.swpt restarts the watchdog, or idles the core for a
requested switch once its units are idle; sy.end ends the core's part, the last core's ending the KERNEL with the group's progress (R138, R140, R143, R144). -/
def Obligations.GroupsMeetAndEnd : Prop :=
  ∀ (s0 : State) (n w : Nat), s0.m.slotReady n 1 w = true →
    let s := s0.onMach (fun m => m.begun n)
    let c := s.m.core n
    let idle := c.d.unitsIdle && c.d.amo.isNone
    let ended := (s.m.setCore n { c with run := false, ended := true, fetched := false, slot := 0, d := { c.d with prog := (c.d.s (wX w)).toNat % 2 ^ 48 } }).incMod .CORE_ISSUED_COUNT 1 n
    (w % 256 = 0x08 → c.released = false → exec (.syBar n) s0 = .next (s.onMach (fun m => (m.setCore n { c with barrier := some (wX w % 16) }).stallCycle n))) ∧
    (w % 256 = 0x08 → c.released = true → exec (.syBar n) s0 = .next (s.onMach (fun m => (m.setCore n { c with barrier := none, released := false }).endSlot n 1))) ∧
    (∀ p g cs x, p < 16 → g < 4 → (s0.m.groupPhys p g).filterMap id = cs → cs ≠ [] → (∀ k ∈ cs, (s0.m.core k).barrier = some x ∧ (s0.m.core k).released = false) →
      exec (.barrierRelease p g) s0 = .next (s0.onMach (fun m => cs.foldl (fun m k => m.setCore k { m.core k with released := true }) m))) ∧
    (w % 256 = 0x0A → s.m.switchWanted (s.m.corePart n) = false → exec (.sySwpt n) s0 = .next (s.onMach (fun m => (m.setCore n { c with wdogFrom := c.cycle }).endSlot n 1))) ∧
    (w % 256 = 0x0A → s.m.switchWanted (s.m.corePart n) = true → idle = true → exec (.sySwpt n) s0 = .next (s.onMach (fun m => m.setCore n { c with atSwitch := true }))) ∧
    (w % 256 = 0x0A → s.m.switchWanted (s.m.corePart n) = true → idle = false → exec (.sySwpt n) s0 = .next (s.onMach (fun m => m.stallCycle n))) ∧
    (w % 256 = 0x0B → idle = false → exec (.syEnd n) s0 = .next (s.onMach (fun m => m.stallCycle n))) ∧
    (w % 256 = 0x0B → idle = true → ∀ k, ended.kernelOf n = some k →
      exec (.syEnd n) s0 = .next (s.onMach (fun _ =>
        if (ended.kernelCores k).all (fun x => (ended.core x).ended) then
          ended.setIssued { k with result := some (if k.extra = [stUe] then stUe else if k.degraded then stDegraded else stOk), progress := ended.groupProgress k }
        else ended)))

/-- A vector operation whose operand entries are present, ready and of one size, and whose result fits a free slot of its queue, pops them and pushes one entry, whose bytes are its
result lane by lane and whose token is set after the operation's latency (R118, R133, R164 to R170). -/
def Obligations.VectorOperationsPushTheirLanes : Prop :=
  ∀ (s0 : State) (n w : Nat) (es : List Bytes) (ps : List (Nat × Nat)) (d1 : CoreData), s0.m.slotReady n 3 w = true →
    let s := s0.onMach (fun m => m.begun n)
    let c := s.m.core n
    let os := ([bits w 13 8, bits w 19 14, bits w 25 20]).take (vecArity (w % 256))
    let dst := bits w 30 26
    let ty := bits w 32 31
    let sreg := (c.d.s (bits w 37 33)).toNat
    let lanes (k : Nat) := lanesOf ty (nthD es k [])
    let x (k : Nat) := laneVal ty k
    let sv := fp32Val (BitVec.ofNat 32 sreg)
    let free := min ((d1.queue dst).bytes / laneBytes ty) (laneMax ty)
    vecOperands s.m n os c.d = .ok (es, ps, d1) → (∀ e ∈ es, e.length = (nthD es 0 []).length) →
    let noted := os.foldl (fun m o => m.noteRead false (coreAddr n ((c.d.queue (o % 32)).offset (c.d.queue (o % 32)).popped)) (nthD es 0 []).length) s.m
    let gives (i : Instr) (res kept : Bytes) (lat : Nat) : Prop := ∀ k d2, d1.give dst res.length = .ok (k, d2) →
      exec i s0 = .next (s.onMach (fun _ => (noted.setD n { d2 with rel := d2.rel ++ ps, vtoks := d2.vtoks ++ [⟨dst, k, kept, c.cycle + lat⟩] }).endSlot n 3))
    let each (f : Nat → Nat → Nat → Nat) : Bytes :=
      packLanes ty ((List.range (lanes 0).length).map (fun i => f (nthD (lanes 0) i 0) (nthD (lanes 1) i 0) (nthD (lanes 2) i 0)))
    let gives' (i : Instr) (res : Bytes) (lat : Nat) : Prop := gives i res res lat
    (w % 256 = 0x01 → gives' (.vxAdd n) (each fun a b _ => if ty = 2 then (a + b) % 2 ^ 32 else rneType ty ((x a).add (x b))) 4) ∧
    (w % 256 = 0x02 → gives' (.vxSub n) (each fun a b _ => if ty = 2 then (a + (2 ^ 32 - b % 2 ^ 32)) % 2 ^ 32 else rneType ty ((x a).add (x b).neg)) 4) ∧
    (w % 256 = 0x03 → gives' (.vxMul n) (each fun a b _ => if ty = 2 then a * b % 2 ^ 32 else rneType ty ((x a).mul (x b))) 4) ∧
    (w % 256 = 0x04 → gives' (.vxFma n) (each fun a b c => if ty = 2 then (a * b + c) % 2 ^ 32 else rneType ty (((x a).mul (x b)).add (x c))) 4) ∧
    (w % 256 = 0x05 → gives' (.vxMax n) (each fun a b _ => if ty = 2 then (if i32 a < i32 b then b else a) else rneType ty (fmax (x a) (x b))) 4) ∧
    (w % 256 = 0x06 → gives' (.vxMin n) (each fun a b _ => if ty = 2 then (if i32 a < i32 b then a else b) else rneType ty (fmin (x a) (x b))) 4) ∧
    (w % 256 = 0x08 → gives' (.vxExp n) (packLanes ty ((lanes 0).map (fun a => rneType ty (vexp (x a))))) 10) ∧
    (w % 256 = 0x09 → gives' (.vxRcp n) (packLanes ty ((lanes 0).map (fun a => rneType ty (fdiv FVal.one (x a))))) 10) ∧
    (w % 256 = 0x0A → gives' (.vxRsqrt n) (packLanes ty ((lanes 0).map (fun a => rneType ty (frsqrt (x a))))) 10) ∧
    (w % 256 = 0x10 → gives' (.vxRsum n) (packLanes ty ((lanes 0).map (fun _ => treeFold (laneOp 1 ty · · 0) 0 (lanes 0)))) 12) ∧
    (w % 256 = 0x11 → gives' (.vxRmax n)
      (packLanes ty ((lanes 0).map (fun _ => treeFold (laneOp 5 ty · · 0) (if ty = 2 then 0x80000000 else if ty = 1 then 0xFF80 else 0xFF800000) (lanes 0)))) 12) ∧
    (w % 256 = 0x18 → ∀ l k d2, s.m.gatherLanes n ty sreg (lanesOf 2 (nthD es 0 [])) = .ok l → d1.give dst (packLanes ty l).length = .ok (k, d2) →
      exec (.vxGather n) s0 = .next (s.onMach (fun _ =>
        (((lanesOf 2 (nthD es 0 [])).foldl (fun m x => m.noteRead false (coreAddr n (gatherOff ty sreg x).toNat) (laneBytes ty)) noted).setD n
          { d2 with rel := d2.rel ++ ps, vtoks := d2.vtoks ++ [⟨dst, k, packLanes ty l, c.cycle + 24⟩] }).endSlot n 3))) ∧
    (w % 256 = 0x20 → gives (.vxCvt n) (cvtBytes ty (bits w 42 38) (lanes 0)) (slice (cvtBytes ty (bits w 42 38) (lanes 0)) 0 (d1.queue dst).bytes) 6) ∧
    (w % 256 = 0x21 → gives' (.vxScal n) (packLanes ty ((lanes 0).map (fun a => rneType ty ((x a).mul sv)))) 4) ∧
    (w % 256 = 0x22 → gives' (.vxBcast n) (packLanes ty (List.replicate free (if ty = 1 then rneBf16 sv else sreg % 2 ^ 32))) 4) ∧
    (w % 256 = 0x28 → gives' (.vxCmp n) (packLanes 2 (((lanes 0).zip (lanes 1)).map (fun k => b2n (laneLt ty k.1 k.2)))) 4) ∧
    (w % 256 = 0x29 → gives' (.vxSel n) (each fun a b c => if laneNonZero ty a then b else c) 4)

/-- mx.mma takes its two panels and waits in the MAC buffer, or runs where the array is free; the running product's end adds it, block by block, into its bank and checksum lanes and releases
the panels; mx.drain waits in the drain path, starts once the bank's earlier products have ended and its checksums agree, traps with FK_ABFT where they do not, and pushes one rounded row at a
time with its token set (R130 to R132, R159 to R163). -/
def Obligations.MatrixUnitsCompute : Prop :=
  ∀ (s0 : State) (n w : Nat), s0.m.awake = true → n < 192 →
    let s := s0.onMach (fun m => m.begun n)
    let d0 := s0.m.coreD n
    let d := s.m.coreD n
    let pair := nget (fun _ => 0) d.mf (bits w 23 22)
    let oa := bits w 13 8
    let ob := bits w 19 14
    let bank := b2n (bit w 20)
    let dst := bits w 28 24
    (s0.m.slotReady n 4 w = true → w % 256 = 1 → d.macWait = none → pairOk pair = true → ∀ ia d1 ba ib d2 bb,
      d.take oa (panelLen (pairA pair) 8192) = .ok (ia, d1) → s.m.entry n (oa % 32) ia (panelLen (pairA pair) 8192) = .ok ba →
      d1.take ob (panelLen (pairB pair) 16384) = .ok (ib, d2) → s.m.entry n (ob % 32) ib (panelLen (pairB pair) 16384) = .ok bb →
      exec (.mxMma n) s0 = .next (s.onMach (fun m =>
        (((m.noteRead false (coreAddr n ((d.queue (oa % 32)).offset ia)) (panelLen (pairA pair) 8192)).noteRead false (coreAddr n ((d.queue (ob % 32)).offset ib))
          (panelLen (pairB pair) 16384)).setD n
          { d2 with macWait := some ⟨oa % 32, ia, (d.queue (oa % 32)).pops, !bit oa 5, ob % 32, ib, (d1.queue (ob % 32)).pops, !bit ob 5, bank, bit w 21, pair, ba, bb,
            d2.drainsOn bank⟩ }.startUnits).endSlot n 4))) ∧
    (s0.m.slotReady n 4 w = true → w % 256 = 1 → d.macWait.isSome = true → exec (.mxMma n) s0 = .next (s.onMach (fun m => m.trapBundle n fkMxBusy))) ∧
    (∀ x, d0.macRun = some x → exec (.mmaComplete n) s0 = .next (s0.onMach (fun m => (m.onUnits n (CoreData.mmaEnd x)).pump n))) ∧
    (∀ x : Mma, x.relA = false → x.relB = false → d.drainRun = none → d.drainWait = none → d.mmaEnd x = ({ d with
      acc := nset (fun _ => []) d.acc x.bank (panelProduct x.pair x.a x.b (if x.clear then [] else d.bankAcc x.bank) (if x.clear then Abft.clear else d.bankAbft x.bank)).1
      abft := nset (fun _ => Abft.clear) d.abft x.bank (panelProduct x.pair x.a x.b (if x.clear then [] else d.bankAcc x.bank) (if x.clear then Abft.clear else d.bankAbft x.bank)).2
      macRun := none } : CoreData).startUnits) ∧
    (s0.m.slotReady n 4 w = true → w % 256 = 2 → d.drainWait = none → (d.queue dst).configured = true → d.tailClaim dst ≠ 1 → drainRowLen (bits w 31 29) ≤ (d.queue dst).bytes →
      exec (.mxDrain n) s0 = .next (s.onMach (fun m =>
        (m.setD n { d with drainWait := some ⟨bank, dst, bits w 31 29, BitVec.ofNat 32 (d.s (bits w 12 8)).toNat, 0, false, d.mmasOn bank⟩ }.startUnits).endSlot n 4))) ∧
    (∀ x v, d0.drainRun = some x → x.started = false → x.afterMmas = 0 →
      exec (.drainStart n v) s0 = .next (s0.onMach (fun m =>
        if m.flag .CORE_CTL_ABFT n = true ∧ (v = .fail ∨ abftFails (d0.bankAcc x.bank) (d0.bankAbft x.bank) = true) then m.trapCore n fkAbft
        else m.onUnits n (fun d => { d with drainRun := some { x with started := true } })))) ∧
    (∀ x, d0.drainRun = some x → x.started = true → (d0.queue x.dst).free ≠ 0 →
      exec (.drainRowPush n) s0 = .next (s0.onMach (fun m =>
        ((m.coreWrite n ((d0.queue x.dst).offset (d0.queue x.dst).pushed) (drainRow x.ofmt x.scale (d0.bankAcc x.bank) x.row)).onUnits n (CoreData.rowPushed x)).pump n))) ∧
    (∀ x : Drain, x.row < 127 → d.rowPushed x = { d.setQueue x.dst ((d.queue x.dst).push true) with drainRun := some { x with row := x.row + 1 } })

/-- ld.tile and st.tile join their units where the descriptor may be used, at most eight of each; a load's next entry arrives with its token, poisoned where its data is; a store whose entries
are all written completes (R117, R134 to R137, R146). -/
def Obligations.LoadsAndStoresStream : Prop :=
  ∀ (s0 : State) (n w : Nat), s0.m.awake = true → n < 192 →
    let s := s0.onMach (fun m => m.begun n)
    let d0 := s0.m.coreD n
    let d := s.m.coreD n
    let p := s.m.corePart n
    let q := bits w 12 8
    let h := (d.s (bits w 17 13)).toNat % 2 ^ 32
    let tile := (d.s (bits w 22 18)).toNat
    let count := bits w 34 23
    (s0.m.slotReady n 5 w = true → w % 256 = 1 → count = 0 → exec (.ldTile n) s0 = .next (s.onMach (fun m => m.endSlot n 5))) ∧
    (∀ ws, s0.m.slotReady n 5 w = true → w % 256 = 1 → 2 ≤ count → d.loads.length < 8 → (d.queue q).configured = true → s.m.ldstDesc p h false = some ws →
      (s.m.tensorOf p ws).tileLen ≤ (d.queue q).bytes → d.tailClaim q ≠ 3 →
      exec (.ldTile n) s0 = .next (s.onMach (fun m => (m.setD n { d with loads := d.loads ++ [⟨q, ws, p, tile, count, [], [], bits w 36 35, true⟩] }).endSlot n 5))) ∧
    (∀ ws i d1, s0.m.slotReady n 5 w = true → w % 256 = 1 → count = 1 → d.loads.length < 8 → (d.queue q).configured = true → s.m.ldstDesc p h false = some ws →
      (s.m.tensorOf p ws).tileLen ≤ (d.queue q).bytes → s.m.tileOk p (s.m.tensorOf p ws) tile = true → d.give q (s.m.tensorOf p ws).tileLen = .ok (i, d1) →
      exec (.ldTile n) s0 = .next (s.onMach (fun m => (m.setD n { d1 with loads := d1.loads ++
        [⟨q, ws, p, tile + 1, 0, if d1.asked < 64 then [(i, tile)] else [], if d1.asked < 64 then [] else [(i, tile)], bits w 36 35, false⟩] }).endSlot n 5))) ∧
    (s0.m.slotReady n 5 w = true → w % 256 = 1 → count ≠ 0 → d.loads.length = 8 → exec (.ldTile n) s0 = .next (s.onMach (fun m => m.trapBundle n fkLsLimit))) ∧
    (s0.m.slotReady n 6 w = true → w % 256 = 1 → count = 0 → exec (.stTile n) s0 = .next (s.onMach (fun m => m.endSlot n 6))) ∧
    (∀ ws, s0.m.slotReady n 6 w = true → w % 256 = 1 → count ≠ 0 → d.stores.length < 8 → (d.queue q).configured = true → s.m.ldstDesc p h true = some ws →
      (s.m.tensorOf p ws).tileLen ≤ (d.queue q).bytes →
      exec (.stTile n) s0 = .next (s.onMach (fun m => (m.setD n { d with stores := d.stores ++ [⟨q, ws, p, tile, count, bits w 38 36, b2n (bit w 35)⟩] }).endSlot n 6))) ∧
    (∀ l i t k rest, k < 32 → d0.loads = [l] → l.dst = k → l.asked = (i, t) :: rest →
      let r := s0.m.noteLoad n l.part l.hint (s0.m.tensorOf l.part l.words) t
      exec (.loadEntryReady n k) s0 = .next (s0.onMach (fun _ => ((r.2.coreWrite n ((d0.queue k).offset i) r.1.bytes).onUnits n (CoreData.entryLands k i r.1.poison rest)).pump n))) ∧
    (∀ l i t k poison, d.loads = [l] → l.dst = k → l.left = 0 → l.queued = [] → l.asked = [(i, t)] →
      d.entryLands k i poison [] = { d.setQueue k ((d.queue k).setToken i poison) with loads := [] }) ∧
    (∀ x rest, d0.stores = x :: rest → x.left = 0 → exec (.storeComplete n) s0 = .next (s0.onMach (fun m => (m.onUnits n (fun d => { d with stores := rest })).pump n)))

/-- What arrives at a core from its own units and from outside: scalar and vector results at their cycle, the answer of its atomic or the trap of a refused one, the end of a background fill,
the stop of its group, its watchdog, a fill that a register starts, and its retirement, at once where no partition holds it (R125, R127, R137, R141, R143, R145, R149). -/
def Obligations.CoreEventsAct : Prop :=
  ∀ (s : State) (n : Nat), s.m.awake = true → n < 192 →
    let c := s.m.core n
    let d := c.d
    (∀ x, d.pend = [x] → exec (.scalarResultWrite n) s = .next (s.onMach (fun m => (m.toCycle n x.due).pump n))) ∧
    (∀ x, d.vtoks = [x] → exec (.vectorTokenSet n) s = .next (s.onMach (fun m => (m.toCycle n x.due).pump n))) ∧
    (∀ k, s.m.toCycle n k = ((if s.m.atSync n then s.m.incMod .CORE_STALLED_COUNT (max c.cycle k - c.cycle) n else s.m).setCore n { c with cycle := max c.cycle k }).settle n) ∧
    (∀ x, d.amo = some x → 2 ^ 48 ≤ x.addr ∨ s.m.amoTarget x.addr x.wide = false →
      exec (.amoComplete n) s = .next (s.onMach (fun m =>
        let m := m.onUnits n (fun d => { d with amo := none })
        if c.run then m.trapCore n fkAmoRefused else m))) ∧
    (∀ x p k, d.amo = some x → x.addr < 2 ^ 48 → s.m.amoTarget x.addr x.wide = true → p = s.m.corePart n → s.m.kernelOf n = some k →
      let m := (s.m.mirrorAll false p (some k.id) x.addr (if x.wide then 8 else 4)).2
      m.readUe false x.addr (if x.wide then 8 else 4) = false →
      let r := m.amoDo p x.addr x.op x.wide x.operand x.compare
      exec (.amoComplete n) s = .next (s.onMach (fun _ => (r.2.coreTouch n [x.addr]).onUnits n (CoreData.amoResult c.cycle x r.1))) ∧
      (d.landed = [] → d.amoResult c.cycle x r.1 = { d with amo := none, sregs := nset (fun _ => 0) d.sregs x.dst (BitVec.ofNat 64 r.1) })) ∧
    (∀ f rest, d.ifill = f :: rest → exec (.ifillDone n) s = .next (s.onMach (fun m => ((m.fillBundles n f).onUnits n (fun d => { d with ifill := rest })).wr .CORE_IFILLST_DONE 1 n))) ∧
    (∀ p g k st cyc lg, p < 16 → g < 4 → s.m.groupStops = [⟨k.id, st, cyc, lg⟩] → s.m.issuedOf k.id = some k → k.part = p → k.queue = 4 + g →
      let m := (s.m.kernelCores k).foldl Mach.stopCore { s.m with groupStops := [] }
      exec (.groupStop p g) s = .next (s.onMach (fun _ => m.kernelEnds ((m.issuedOf k.id).getD k) st))) ∧
    (c.run = true → c.atSwitch = false → s.m.rd .CORE_WDOG_LIMIT n ≠ 0 → exec (.watchdogExpiry n) s =
      .next (s.onMach (fun m => (m.toCycle n (c.wdogFrom + s.m.rd .CORE_WDOG_LIMIT n * 65536)).trapCore n fkWdog))) ∧
    (∀ who src dst count, s.m.serves who (0x01000038 + n * 0x10000) = true → s.m.coreHidden (0x01000038 + n * 0x10000) = false → c.run = true →
      exec (.ifillGo who n src dst count) s = .next (s.onMach (fun m =>
        ((((m.wr .CORE_IFILL_SRC src n).wr .CORE_IFILL_DST dst n).wr .CORE_IFILL_COUNT count n).wr .CORE_IFILLST_REFUSED 1 n).inc .GLOBAL_BADACC_COUNT))) ∧
    (∀ who src dst count, s.m.serves who (0x01000038 + n * 0x10000) = true → s.m.coreHidden (0x01000038 + n * 0x10000) = false → c.run = false →
      let m := ((s.m.wr .CORE_IFILL_SRC src n).wr .CORE_IFILL_DST dst n).wr .CORE_IFILL_COUNT count n
      fillBad (m.rd .CORE_IFILL_SRC n) (m.rd .CORE_IFILL_DST n) (m.rd .CORE_IFILL_COUNT n) = false →
      exec (.ifillGo who n src dst count) s = .next (s.onMach (fun _ =>
        m.setD n { d with ifill := d.ifill ++ [⟨m.rd .CORE_IFILL_SRC n, m.rd .CORE_IFILL_DST n, m.rd .CORE_IFILL_COUNT n⟩] }))) ∧
    (∀ who src dst count, s.m.serves who (0x01000038 + n * 0x10000) = true → s.m.coreHidden (0x01000038 + n * 0x10000) = true →
      exec (.ifillGo who n src dst count) s = .next (s.onMach Mach.badAcc)) ∧
    (∀ who, s.m.serves who (0x01000008 + n * 0x10000) = true → (s.m.map n).st = 0 → (s.m.groupOf n).isSome = true →
      exec (.coreRetire who n) s = .next (s.onMach (fun m => m.setMap n ⟨3, (m.map n).logical⟩))) ∧
    (∀ who, s.m.serves who (0x01000008 + n * 0x10000) = true → (s.m.map n).st = 0 → s.m.groupOf n = none →
      exec (.coreRetire who n) s = .next (s.onMach (fun m => (m.setMap n ⟨3, (m.map n).logical⟩).retireNow n)))

/-- An operation that R123 makes illegal traps with FK_ILLEGAL, whatever row of the scalar slot asks; a trap takes the bundle's effects back, stops the core and shows its kind, and of a
group's traps the earliest decides, the one of the lowest logical core among those of one cycle (R123, R141). -/
def Obligations.IllegalOperationsTrap : Prop :=
  ∀ (s : State) (n j w : Nat), s.m.atSlot n j w = true → slotIllegal j w = true →
    exec (.scAdd n) s = .next (s.onMach (fun m => (m.begun n).trapBundle n fkIllegal)) ∧
    exec (.syIdle n) s = .next (s.onMach (fun m => (m.begun n).trapBundle n fkIllegal)) ∧
    exec (.vxAdd n) s = .next (s.onMach (fun m => (m.begun n).trapBundle n fkIllegal)) ∧
    exec (.mxMma n) s = .next (s.onMach (fun m => (m.begun n).trapBundle n fkIllegal)) ∧
    exec (.ldTile n) s = .next (s.onMach (fun m => (m.begun n).trapBundle n fkIllegal)) ∧
    exec (.stTile n) s = .next (s.onMach (fun m => (m.begun n).trapBundle n fkIllegal)) ∧
    (∀ (m : Mach) (kind : Nat) (k : Issued), m.kernelOf n = some k → kind ≠ fkAbft → kind ≠ fkIfetchUe → kind ≠ fkDataUe →
      let c := m.core n
      let m1 := (((m.setCore n { c with run := false, fetched := false, slot := 0, d := c.d.stopped }).wr .CORE_STAT_TRAPPED 1 n).wr .CORE_STAT_LASTFK kind n).postFor (some k.id)
        ⟨k.part, 0, 0, 0, n, kind⟩
      m.trapBundle n kind = (m.setD n c.before).trapCore n kind ∧ m.trapCore n kind = m1.noteTrap k.id ⟨k.id, stCoreTrap, c.cycle, (m1.map n).logical⟩ ∧
        (∀ (g : GroupStop), m.groupStops.find? (fun x => x.cmdId == k.id) = none → m.noteTrap k.id g = { m with groupStops := m.groupStops ++ [g] }) ∧
        (∀ (g x : GroupStop), m.groupStops.find? (fun x => x.cmdId == k.id) = some x →
          (g.cycle < x.cycle ∨ (g.cycle = x.cycle ∧ g.logical < x.logical) →
            m.noteTrap k.id g = { m with groupStops := m.groupStops.map (fun y => if y.cmdId = k.id then g else y) }) ∧
          (x.cycle < g.cycle ∨ (g.cycle = x.cycle ∧ x.logical ≤ g.logical) → m.noteTrap k.id g = m)))

/-! ## Partitions, descriptors and allocations (files 07 and 10) -/

/-- Descriptors: CREATE, absent until firmware has started, stages the words unless a validation runs; its end shows the status and, on success, the handle of the lowest free slot, with one more live descriptor and a reference to
its allocation; DESTROY starts a drain of a valid handle; a drained slot is free under the next generation, never 0 (R18, R176, R177). -/
def Obligations.DescriptorsLiveAndDrain : Prop :=
  ∀ (s : State) (who : Requester) (p k : Nat), p < 16 → k < 4096 →
    (s.m.serves who (0x00E00080 + p * 0x10000) = true →
      (s.m.firmware = false → exec (.descriptorCreate who p) s = .next (s.onMach (fun m => m.inc .GLOBAL_BADACC_COUNT))) ∧
      (s.m.firmware = true → s.m.flag .SEC_DRES_BUSY p = false → exec (.descriptorCreate who p) s =
        .next (s.onMach (fun m => { m.wr .SEC_DRES_BUSY 1 p with creating := nset (fun _ => []) m.creating p (m.staged p) }))) ∧
      (s.m.flag .SEC_DRES_BUSY p = true → exec (.descriptorCreate who p) s = .next (s.onMach (fun m => m.inc .GLOBAL_BADACC_COUNT))) ∧
      (∀ h w, (s.m.wr .SEC_DCTL_TARGET h p).resolveHandle p h = some w → exec (.descriptorDestroy who p h) s =
        .next (s.onMach (fun m => ((m.wr .SEC_DCTL_TARGET h p).drainDesc p (bits h 11 0)).wr .SEC_DRES_STATUS stOk p))) ∧
      (∀ h, (s.m.wr .SEC_DCTL_TARGET h p).resolveHandle p h = none → exec (.descriptorDestroy who p h) s =
        .next (s.onMach (fun m => (m.wr .SEC_DCTL_TARGET h p).wr .SEC_DRES_STATUS stDescHandle p)))) ∧
    (s.m.awake = true → s.m.flag .SEC_DRES_BUSY p = true →
      let w := nget (fun _ => []) s.m.creating p
      let m := { (s.m.wr .SEC_DRES_BUSY 0 p).wr .SEC_DRES_STATUS (s.m.validate p w) p with creating := nset (fun _ => []) s.m.creating p [] }
      (s.m.validate p w ≠ stOk → exec (.descriptorValidationDone p) s = .next (s.onMach (fun _ => m.wr .SEC_DRES_HANDLE 0 p))) ∧
      (∀ i, s.m.validate p w = stOk → (List.range 4096).find? (fun i => (m.desc p i).st == 0) = some i →
        exec (.descriptorValidationDone p) s = .next (s.onMach (fun _ =>
          let r := (m.setDesc p i ⟨1, (m.desc p i).gen, w, []⟩).refUp p (bits (nthD w 0 0) 7 0)
          (r.wr .SEC_DSTAT_LIVE (r.rd .SEC_DSTAT_LIVE p + 1) p).wr .SEC_DRES_HANDLE (handleOf p i (m.desc p i).gen) p)))) ∧
    (s.m.awake = true → (s.m.desc p k).st = 2 → (∀ c ∈ (s.m.desc p k).waitFor, s.m.issuedOf c = none) → exec (.descriptorDrainDone p k) s =
      .next (s.onMach (fun m =>
        let r := (m.setDesc p k ⟨0, if (m.desc p k).gen = 65535 then 1 else (m.desc p k).gen + 1, [], []⟩).refDown p (bits (nthD (m.desc p k).words 0 0) 7 0)
        r.wr .SEC_DSTAT_DRAINING (r.rd .SEC_DSTAT_DRAINING p - 1) p)))

/-- An allocation entry takes a word that meets R173 while no descriptor refers to it, of an unsealed partition at once and of a sealed one once the bytes that the entry named and will name are
forgotten, and is left and counted otherwise; before firmware only partition 0 has entries; a partition is enabled where its cores
and sessions allow, resident where no resident one conflicts, without an open step and with no saved cores, and disabled only with its queues disabled and nothing issued (R18, R173, R174, R257, R258, R370). -/
def Obligations.AllocationsAndEnables : Prop :=
  ∀ (s : State) (who : Requester) (p a v : Nat) (len : Bool), p < 16 → a < 256 →
    (s.m.serves who (0x00E01000 + p * 0x10000 + a * 0x10) = true → p ≠ 0 → s.m.firmware = false → exec (.secAllocWrite who p a len v) s = .next (s.onMach (fun m => m.inc .GLOBAL_BADACC_COUNT))) ∧
    (s.m.serves who (0x00E01000 + p * 0x10000 + a * 0x10) = true → p = 0 ∨ s.m.firmware = true → (∀ e ∈ s.m.allocPend, e.1 = p → e.2.1 ≠ a) →
      let new := if len then s.m.wr .SEC_ALLOC_LEN v p a else ((s.m.wr .SEC_ALLOC_BASE v p a).wr .SEC_ALLOC_READ (v / 2 ^ 48) p a).wr .SEC_ALLOC_WRITE (v / 2 ^ 49) p a
      let m' := (s.m.startForgets (s.m.rd .SEC_ALLOC_BASE p a) (s.m.rd .SEC_ALLOC_LEN p a) (.alloc p a)).startForgets (new.rd .SEC_ALLOC_BASE p a) (new.rd .SEC_ALLOC_LEN p a) (.alloc p a)
      (s.m.rd .SEC_ALLOC_REFS p a = 0 → new.allocOk p a = true → s.m.isSealed p = false → exec (.secAllocWrite who p a len v) s = .next (s.onMach (fun _ => new))) ∧
      (s.m.rd .SEC_ALLOC_REFS p a = 0 → new.allocOk p a = true → s.m.isSealed p = true → m'.forgets.any (fun f => f.owner == .alloc p a) = true →
        exec (.secAllocWrite who p a len v) s = .next (s.onMach (fun _ => { m' with allocPend := m'.allocPend ++ [(p, a, len, v)] }))) ∧
      (s.m.rd .SEC_ALLOC_REFS p a ≠ 0 ∨ new.allocOk p a = false → exec (.secAllocWrite who p a len v) s = .next (s.onMach (fun m => m.inc .GLOBAL_BADACC_COUNT)))) ∧
    (s.m.serves who (0x00C80000 + p * 0x100) = true → p = 0 ∨ s.m.firmware = true →
      (s.m.enabled p = true → exec (.partitionEnable who p 1) s = .next s) ∧
      (s.m.enabled p = false → s.m.groupsBad p = false → (∀ q < 16, q ≠ p → s.m.enabled q = true → s.m.rangesOverlap p q = false) →
        exec (.partitionEnable who p 1) s = .next (s.onMach (fun m =>
          let free := !(List.range 16).any (fun q => q != p && m.resident q && m.conflict p q)
          let m := (m.wr .SEC_PART_CTL_ENABLE 1 p).wr .SEC_PART_CTL_RESIDENT (b2n free) p
          { m.setMon p { m.mon p with hadStep := false } with saved := m.saved.filter (fun x => x.part != p) }))) ∧
      (s.m.enabled p = true → (∀ q < 20, s.m.flag .SEQR_QCTL_ENABLE p q = false) → (∀ c ∈ s.m.sq.issued, c.part ≠ p) →
        exec (.partitionEnable who p 0) s = .next (s.onMach (fun m => (m.wr .SEC_PART_CTL_ENABLE 0 p).wr .SEC_PART_CTL_RESIDENT 0 p))) ∧
      (∀ q, q < 20 → s.m.enabled p = true → s.m.flag .SEQR_QCTL_ENABLE p q = true → exec (.partitionEnable who p 0) s = .next (s.onMach (fun m => m.inc .GLOBAL_BADACC_COUNT))))

/-- A switch: GO with operands that R278 allows sets BUSY, PHASE 1 and the PREEMPT cause of both partitions, and is refused and counted otherwise, the switch that runs going on with its own partitions; from
the next tick on phases 2 to 5 follow, each once its work is over, the last making IN resident in place of OUT and showing the duration; a core that has not reached its switch point by LIMIT stops its
group, and the KERNEL ends (R278 to R280). -/
def Obligations.SwitchesGoThroughTheirPhases : Prop :=
  ∀ (s : State) (who : Requester) (x y n : Nat), x < 16 → y < 16 → n < 192 →
    let m := (s.m.wr .SEC_PSW_OUT x).wr .SEC_PSW_IN y
    let a := s.m.switch.out
    let b := s.m.switch.inn
    (s.m.serves who 0x00C81000 = true → s.m.firmware = true →
      (m.switchRefused (m.rd .SEC_PSW_OUT) (m.rd .SEC_PSW_IN) = true → exec (.partitionSwitchGo who x y) s =
        .next (s.onMach (fun _ => (m.wr .SEC_PSW_REFUSED 1).inc .GLOBAL_BADACC_COUNT))) ∧
      (m.switchRefused (m.rd .SEC_PSW_OUT) (m.rd .SEC_PSW_IN) = false → exec (.partitionSwitchGo who x y) s =
        .next (s.onMach (fun _ => { ((m.wr .SEC_PSW_BUSY 1).wr .SEC_PSW_PHASE 1).preempt (m.rd .SEC_PSW_OUT) (m.rd .SEC_PSW_IN) with
          switch := { m.switch with out := m.rd .SEC_PSW_OUT, inn := m.rd .SEC_PSW_IN, at_ := m.tick } }))) ∧
      (s.m.flag .SEC_PSW_BUSY = true → ∃ t, exec (.partitionSwitchGo who x y) s = .next t ∧ t.m.switch = s.m.switch)) ∧
    (s.m.awake = true → s.m.flag .SEC_PSW_BUSY = true →
      (s.m.rd .SEC_PSW_PHASE = 1 → s.m.switch.at_ = s.m.tick → exec .switchPhaseComplete s = .next (s.onMach Mach.runWaitingResets)) ∧
      (s.m.rd .SEC_PSW_PHASE = 1 → s.m.switch.at_ ≠ s.m.tick → s.m.resident a = true →
        exec .switchPhaseComplete s = .next (s.onMach (fun m => ((m.wr .SEC_PSW_PHASE 2).drainStart a).runWaitingResets))) ∧
      (s.m.rd .SEC_PSW_PHASE = 1 → s.m.switch.at_ ≠ s.m.tick → s.m.resident a = false → exec .switchPhaseComplete s = .next (s.onMach (fun m => (m.wr .SEC_PSW_PHASE 5).runWaitingResets))) ∧
      (s.m.rd .SEC_PSW_PHASE = 2 → s.m.undrained a = [] → exec .switchPhaseComplete s = .next (s.onMach (fun m => (m.wr .SEC_PSW_PHASE 3).runWaitingResets))) ∧
      (s.m.rd .SEC_PSW_PHASE = 3 → s.m.unsettled a = false → exec .switchPhaseComplete s = .next (s.onMach (fun m => (m.wr .SEC_PSW_PHASE 4).runWaitingResets))) ∧
      (s.m.rd .SEC_PSW_PHASE = 4 → exec .switchPhaseComplete s = .next (s.onMach (fun m => ((m.saveCores a).wr .SEC_PSW_PHASE 5).runWaitingResets))) ∧
      (s.m.rd .SEC_PSW_PHASE = 5 → exec .switchPhaseComplete s = .next (s.onMach (fun m =>
        let m := m.restoreCores a b
        let m := ((m.wr .SEC_PSW_BUSY 0).wr .SEC_PSW_PHASE 0).wr .SEC_PSW_LASTDUR ((m.tick - m.switch.at_) * 100)
        (({ m with switch := { m.switch with endedAt := some m.tick } } : Mach).startKernels b).runWaitingResets)))) ∧
    (∀ t c, s.m.awake = true → s.m.drainSince (s.m.corePart n) = some t → s.m.kernelOf n = some c → n ∈ s.m.undrained (s.m.corePart n) → t + s.m.rd .SEC_PSW_LIMIT ≤ s.m.tick →
      exec (.switchDrainForce n) s = .next (s.onMach (fun m =>
        (({ (m.kernelCores c).foldl Mach.stopCore m with groupStops := m.groupStops.filter (fun x => x.cmdId != c.id) } : Mach).kernelEnds c stPreempted).inc .SEC_PSW_FORCED)))

/-! ## Links (file 11) -/

/-- A routed frame that ends at this block and whose tag verifies has its effect: WRITE and SEAL store and count, or are dropped for want of a right; READREQ and ATOMREQ are answered; READREP and
ATOMREP serve their command, or are late. One whose tag fails is counted and recorded (R72 to R74, R79, R293 to R297). -/
def Obligations.RoutedFramesHaveTheirEffect : Prop :=
  ∀ (s : State) (n : Nat) (f : Frame) (data : Bytes), n < 16 →
    let g (typ : Nat) : Frame := { f with typ := typ, ret := retWith f n }
    let opens (typ : Nat) : Prop := s.m.reaches n { f with typ := typ } = true ∧ (s.m.counted n).openFrame (g typ) = some data
    (∀ x ∈ [(Instr.writeFrame n f, 0x10), (.sealFrame n f, 0x11), (.readreqFrame n f, 0x12), (.readrepFrame n f, 0x13), (.atomreqFrame n f, 0x14), (.atomrepFrame n f, 0x15)],
      s.m.reaches n { f with typ := x.2 } = true → (s.m.counted n).openFrame (g x.2) = none →
        exec x.1 s = .next (s.onMach (fun m => ((m.counted n).inc .LINK_AUTH_FAIL 1 n).post ⟨0, 0, 0, 4, n, fkLinkAuth⟩))) ∧
    (opens 0x10 →
      let m := (s.m.counted n).hearFrame (g 0x10)
      (f.len = 0 ∨ m.rangeOk f.addr (f.len * 32) = true ∧ m.granted f.dstPart true f.addr (f.len * 32) = true →
        exec (.writeFrame n f) s = .next (s.onMach (fun _ => (m.landBytes f.dstPart f.addr (slice data 0 (f.len * 32))).countWrite n (g 0x10)))) ∧
      (f.len ≠ 0 → m.rangeOk f.addr (f.len * 32) = false ∨ m.granted f.dstPart true f.addr (f.len * 32) = false →
        exec (.writeFrame n f) s = .next (s.onMach (fun _ => (m.loseWrite (g 0x10) 0).post ⟨0, 0, 0, 4, n, fkLinkRights⟩)))) ∧
    (opens 0x11 →
      let m := (s.m.counted n).hearFrame (g 0x11)
      (f.addr % 32 ≠ 0 ∨ m.inBlock f.addr = false ∨ m.granted f.dstPart true f.addr 32 = false → exec (.sealFrame n f) s = .next (s.onMach (fun _ => m.post ⟨0, 0, 0, 4, n, fkLinkRights⟩))) ∧
      (f.addr % 32 = 0 → m.inBlock f.addr = true → m.granted f.dstPart true f.addr 32 = true →
        let h : HeldSeal := ⟨f.addr, field data 30 1, field data 24 3, if field data 27 3 = 0 then none else some (m.tick + field data 27 3), slice data 0 24, f.env⟩
        (∀ t, m.transfer f.srcBlock f.dstPart f.xfer = some t → exec (.sealFrame n f) s = .next (s.onMach (fun _ => m.trySeal { t with held := some h }))) ∧
        (m.transfer f.srcBlock f.dstPart f.xfer = none → m.tableFull f.dstPart = false →
          exec (.sealFrame n f) s = .next (s.onMach (fun _ => m.trySeal ⟨f.srcBlock, f.dstPart, f.xfer, 0, 0, some h, none⟩))) ∧
        (m.transfer f.srcBlock f.dstPart f.xfer = none → m.tableFull f.dstPart = true → exec (.sealFrame n f) s = .next (s.onMach (fun _ => m.post ⟨0, 0, 0, 4, n, fkSealTable⟩))))) ∧
    (opens 0x12 →
      let m := (s.m.counted n).hearFrame (g 0x12)
      let k := (m.mirrorAll false 0 none f.addr (f.len * 32)).2
      (m.rangeOk f.addr (f.len * 32) = false → exec (.readreqFrame n f) s = .next (s.onMach (fun _ => m.reply (g 0x12) 0x13 [] stAddrInvalid))) ∧
      (m.rangeOk f.addr (f.len * 32) = true → m.granted f.dstPart false f.addr (f.len * 32) = true → k.readUe false f.addr (f.len * 32) = false →
        exec (.readreqFrame n f) s = .next (s.onMach (fun _ => (k.noteRead false f.addr (f.len * 32)).reply (g 0x12) 0x13 (k.read false f.addr (f.len * 32)) stOk))) ∧
      (m.rangeOk f.addr (f.len * 32) = true → m.granted f.dstPart false f.addr (f.len * 32) = true → k.readUe false f.addr (f.len * 32) = true →
        exec (.readreqFrame n f) s = .next (s.onMach (fun _ => ((k.noteRead false f.addr (f.len * 32)).postUnits false 0 none f.addr (f.len * 32)).reply (g 0x12) 0x13 [] stUe))) ∧
      (m.rangeOk f.addr (f.len * 32) = true → m.granted f.dstPart false f.addr (f.len * 32) = false →
        exec (.readreqFrame n f) s = .next (s.onMach (fun _ => (m.post ⟨0, 0, 0, 4, n, fkLinkRights⟩).reply (g 0x12) 0x13 [] stDescRights)))) ∧
    (opens 0x13 →
      let m := (s.m.counted n).hearFrame (g 0x13)
      (m.requestOf f.rid = none → exec (.readrepFrame n f) s = .next (s.onMach (fun _ => m.inc .LINK_GCTL_LATEREP))) ∧
      (∀ r c, m.requestOf f.rid = some (r, c) → m.replyLate c = true →
        exec (.readrepFrame n f) s = .next (s.onMach (fun _ => (m.endRequests c stLinkLost).inc .LINK_GCTL_LATEREP))) ∧
      (∀ r c, m.requestOf f.rid = some (r, c) → m.replyLate c = false → f.status ≠ stOk → (g 0x13).causes = 0 →
        exec (.readrepFrame n f) s = .next (s.onMach (fun _ => m.endRequests ((m.issuedOf c.id).getD c) f.status))) ∧
      (∀ r c, m.requestOf f.rid = some (r, c) → m.replyLate c = false → f.status = stOk → (g 0x13).causes = 0 →
        let c' := (m.issuedOf c.id).getD c
        let k := (m.landBytes c'.part r.addr (slice data 0 r.len)).throttleTouch c'.id (m.stacksOf r.addr r.len)
        let d := (k.issuedOf c'.id).getD c'
        let k' : Mach := { k with requests := k.requests.filter (fun x => x.rid != r.rid) }
        exec (.readrepFrame n f) s = .next (s.onMach (fun _ => k'.setIssued
          { d with progress := k'.landedPrefix d, left := d.left - 1, result := if d.left ≤ 1 then some stOk else none })))) ∧
    (opens 0x14 →
      let m := (s.m.counted n).hearFrame (g 0x14)
      (m.flag .RST_MODE_TEST = false → exec (.atomreqFrame n f) s = .next (s.onMach (fun _ => m.reply (g 0x14) 0x15 (toBytes 8 0) stNoRemoteAtomic))) ∧
      (∀ wide, (field data 1 1 == 1) = wide → m.flag .RST_MODE_TEST = true → m.rangeOk f.addr (if wide then 8 else 4) = true → m.allowedRW 0 f.addr (if wide then 8 else 4) = true →
        m.amoTarget f.addr wide = true → field data 0 1 ≤ 5 →
        let r := m.amoDo 0 f.addr (field data 0 1) wide (field data 8 8) (field data 16 8)
        exec (.atomreqFrame n f) s = .next (s.onMach (fun _ => r.2.reply (g 0x14) 0x15 (toBytes 8 r.1) stOk)))) ∧
    (opens 0x15 →
      let m := (s.m.counted n).hearFrame (g 0x15)
      (m.requestOf f.rid = none → exec (.atomrepFrame n f) s = .next (s.onMach (fun _ => m.inc .LINK_GCTL_LATEREP))) ∧
      (∀ r c, m.requestOf f.rid = some (r, c) → m.replyLate c = false → f.status = stOk → (g 0x15).causes = 0 →
        let d := (m.issuedOf c.id).getD c
        let w := (m.throttleTouch d.id (m.stacksOf r.addr 8)).writeFor d.part d.id r.addr (slice data 0 8)
        exec (.atomrepFrame n f) s = .next (s.onMach (fun _ => w.1.endRequests { (w.1.issuedOf d.id).getD d with progress := 1 } w.2))))

/-- A routed frame that does not end here: one of a stopped partition, for a block that is another's, or before firmware runs, is discarded into its counter; one with hops left goes on at the
port its route names, in class 4, with HIDX one higher, or is discarded where that port is not UP (R290, R291, R302). -/
def Obligations.FramesAreRelayedOrDiscarded : Prop :=
  ∀ (s : State) (n : Nat) (f : Frame), n < 16 → s.m.hears n = true →
    let m := s.m.counted n
    let o := routePort f.route f.hidx
    ∀ x ∈ [(Instr.writeFrame n f, 0x10), (.sealFrame n f, 0x11), (.readreqFrame n f, 0x12), (.readrepFrame n f, 0x13), (.atomreqFrame n f, 0x14), (.atomrepFrame n f, 0x15)],
      (m.stoppedFrame n f = true → exec x.1 s = .next (s.onMach (fun _ => m.inc .LINK_DISCARD_STOPPED 1 n))) ∧
      (m.stoppedFrame n f = false → f.hidx < routeHops f.route → m.portUp o = true →
        exec x.1 s = .next (s.onMach (fun _ =>
          let k := (m.demand [portDom o]).inc .LINK_RELAYED_COUNT 1 o
          { k with power := { k.power with relayAt := put natBefore o k.tick k.power.relayAt }, txq := k.txq ++ [⟨o, 4, { f with typ := x.2, ret := retWith f n, hidx := f.hidx + 1 }, none⟩] }))) ∧
      (m.stoppedFrame n f = false → f.hidx < routeHops f.route → m.portUp o = false →
        exec x.1 s = .next (s.onMach (fun _ => (m.inc .LINK_DISCARD_DOWN 1 o).noteRoute o))) ∧
      (m.stoppedFrame n f = false → routeHops f.route ≤ f.hidx → f.dstBlock ≠ m.rd .GLOBAL_BLOCK_NUM →
        exec x.1 s = .next (s.onMach (fun _ => (m.inc .LINK_DISCARD_ROUTE 1 n).post ⟨0, 0, 0, 4, n, fkLinkMisroute⟩))) ∧
      (m.stoppedFrame n f = false → routeHops f.route ≤ f.hidx → f.dstBlock = m.rd .GLOBAL_BLOCK_NUM → m.firmware = false →
        exec x.1 s = .next (s.onMach (fun _ => m.inc .LINK_DISCARD_NOSERVICE 1 n)))

/-- Hop frames heard on a port: an unknown one is discarded into DISCARD.ROUTE; a dark TRAIN puts an UP port in DOWN; STOP adds its mask under its sender and START from that sender takes it
away; SYNC matters to a synchronised block alone, and to none from distance 63 (R288, R298, R301, R302). -/
def Obligations.HopFramesAct : Prop :=
  ∀ (s : State) (n src mask gm dist sender sub : Nat), n < 16 → s.m.awake = true → s.m.hears n = true →
    let m := s.m.counted n
    exec (.unknownFrame n) s = .next (s.onMach (fun _ => m.inc .LINK_DISCARD_ROUTE 1 n)) ∧
    (m.portUp n = true → exec (.trainFrame n true) s = .next (s.onMach (fun _ => (m.wr .LINK_STATE_STATE 0 n).dropQueue n))) ∧
    (m.trains n = false → exec (.trainFrame n false) s = .next (s.onMach (fun _ => m))) ∧
    exec (.stopFrame n src mask) s = .next (s.onMach (fun _ =>
      (m.wr .LINK_STOP_SRC src n).wr .LINK_STOP_PMASK ((if m.rd .LINK_STOP_SRC n = src then m.rd .LINK_STOP_PMASK n else 0) ||| mask % 65536) n)) ∧
    (m.rd .LINK_STOP_SRC n = src → exec (.startFrame n src mask) s =
      .next (s.onMach (fun _ => m.wr .LINK_STOP_PMASK (m.rd .LINK_STOP_PMASK n &&& (65535 ^^^ mask % 65536)) n))) ∧
    (m.rd .LINK_STOP_SRC n ≠ src → exec (.startFrame n src mask) s = .next (s.onMach (fun _ => m))) ∧
    (m.rd .TIME_CTL_ROLE ≠ 0 ∨ 63 ≤ dist → exec (.syncFrame n gm dist sender sub) s = .next (s.onMach (fun _ => m))) ∧
    (m.rd .TIME_CTL_ROLE = 0 → dist < 63 →
      let k : Mach := { m with time := { m.time with sync := { m.time.sync with heard := ⟨n, gm, dist, m.tick⟩ :: m.time.sync.heard.filter (fun x => x.port != n) } } }
      ∀ b, k.source = some b →
        let k' : Mach := { k.wr .TIME_SYNC_PORT b.port with time := { k.time with sync := { k.time.sync with gm := b.gm, dist := b.dist } } }
        (b.port = n → exec (.syncFrame n gm dist sender sub) s =
          .next (s.onMach (fun _ => k'.acceptSync n ((sender : Int) + 180 - ((m.tick * 100 + sub % 100 : Nat) : Int))))) ∧
        (b.port ≠ n → exec (.syncFrame n gm dist sender sub) s = .next (s.onMach (fun _ => k'))))

/-- The pair: a frame of the twin counts on the pair port alone, and only where its tag verifies; a DIGEST of the open step of its partition is held for the EMIT of that step and compared with its own,
another is recorded; CHECK and FENCE are weighed with the own result; the own digest goes to the twin and is compared: a bad own one withholds, a bad or equal one of the twin releases, another is a
mismatch; a twin that stays silent is a mismatch at its digest, but in SOLO, and lost, SOLO, at its check (R288, R297, R303 to R307). -/
def Obligations.PairFramesAndTimers : Prop :=
  ∀ (s : State) (n : Nat) (f : Frame) (data : Bytes), n < 16 → s.m.awake = true →
    let m := s.m.counted n
    let d := digestOf data
    let rows : List (Instr × Nat) := [(.digestFrame n f, 0x20), (.checkFrame n f, 0x21), (.fenceFrame (n, f), 0x22)]
    (∀ x ∈ rows, s.m.hears n = true → m.flag .LINK_PAIR_ENABLE = false ∨ m.rd .LINK_PAIR_PORT ≠ n → exec x.1 s = .next (s.onMach (fun _ => m.inc .LINK_DISCARD_ROUTE 1 n))) ∧
    (s.m.hears n = true → m.flag .LINK_PAIR_ENABLE = true → m.rd .LINK_PAIR_PORT = n →
      (∀ x ∈ rows, m.openFrame { f with typ := x.2 } = none → exec x.1 s = .next (s.onMach (fun _ => (m.inc .LINK_AUTH_FAIL 1 n).post ⟨0, 0, 0, 4, n, fkLinkAuth⟩))) ∧
      (m.openFrame { f with typ := 0x20 } = some data →
        let k := m.hearFrame { f with typ := 0x20 }
        let k' := k.setMon d.part { k.mon d.part with twin := some (d.actmask, d.warn, d.miss) }
        let held : Mach := { k' with pair := { k'.pair with twins := d :: k'.pair.twins.filter (fun x => x.part != d.part) } }
        (k.flag .SEQR_STEP_OPEN d.part = true → k.rd .SEQR_STEP_NUM d.part = d.step →
          (k.pair.waits.find? (fun w => w.part == d.part) = none → exec (.digestFrame n f) s = .next (s.onMach (fun _ => held))) ∧
          (∀ w, k.pair.waits.find? (fun w => w.part == d.part) = some w → exec (.digestFrame n f) s = .next (s.onMach (fun _ => held.pairCompare w)))) ∧
        (k.flag .SEQR_STEP_OPEN d.part = false ∨ k.rd .SEQR_STEP_NUM d.part ≠ d.step →
          exec (.digestFrame n f) s = .next (s.onMach (fun _ => k.post ⟨0, 0, 0, 4, n, fkPairSeq⟩)))) ∧
      (m.openFrame { f with typ := 0x21 } = some data →
        let k := m.hearFrame { f with typ := 0x21 }
        let v : Verdict := if field data 0 1 = 0 then .pass else .fail
        exec (.checkFrame n f) s = .next (s.onMach (fun _ => ({ k with pair := { k.pair with twinCheck := some (v, some (field data 8 6)) } } : Mach).pairWeigh))) ∧
      (m.openFrame { f with typ := 0x22 } = some data →
        let k := m.hearFrame { f with typ := 0x22 }
        exec (.fenceFrame (n, f)) s = .next (s.onMach (fun _ => ({ k with pair := { k.pair with twinCheck := some (.fail, none) } } : Mach).pairWeigh)))) ∧
    (∀ w, s.m.pair.waits.find? (fun w => w.own.isNone) = some w →
      let mon := s.m.mon w.part
      let own : Digest := ⟨slice (Config.sha512 ((w.staged.map digestBytes).flatten)) 0 32, s.m.rd .SEQR_STEP_NUM w.part, w.part, mon.bad, mon.warned, mon.missed, mon.fired⟩
      exec .digestReady s = .next (s.onMach (fun m =>
        let k := m.sendTwin 0x20 (digestData own)
        let w' : PairWait := { w with own := some own, sentAt := k.tick }
        ({ k with pair := { k.pair with waits := k.pair.waits.map (fun x => if x.cmdId = w.cmdId then w' else x) } } : Mach).pairCompare w'))) ∧
    (∀ w o t, w.own = some o → s.m.twinOf o = some t →
      let k := s.m.wr .LINK_PAIR_LASTSTEP o.step
      (o.bad = true → s.m.pairCompare w = s.m.withhold w stWithdrawn) ∧
      (o.bad = false → t.bad = true ∨ t.hash = slice o.hash 0 32 → s.m.pairCompare w = k.release w) ∧
      (o.bad = false → t.bad = false → t.hash ≠ slice o.hash 0 32 → s.m.pairCompare w = k.pairMismatch w)) ∧
    (∀ w o, s.m.pair.waits.find? (fun w => w.own.isSome && decide (w.sentAt + s.m.rd .LINK_PAIR_WAIT ≤ s.m.tick)) = some w → w.own = some o →
      (o.bad = true → exec .pairWaitExpiry s = .next (s.onMach (fun m => m.withhold w stWithdrawn))) ∧
      (o.bad = false → s.m.rd .LINK_PAIR_STATE = 3 → exec .pairWaitExpiry s = .next (s.onMach (fun m => m.release w))) ∧
      (o.bad = false → s.m.rd .LINK_PAIR_STATE ≠ 3 → exec .pairWaitExpiry s = .next (s.onMach (fun m => m.pairMismatch w)))) ∧
    ((∀ w ∈ s.m.pair.waits, w.own.isSome = true → s.m.tick < w.sentAt + s.m.rd .LINK_PAIR_WAIT) → exec .pairWaitExpiry s = .next s) ∧
    (s.m.rd .LINK_PAIR_STATE = 2 → s.m.pair.ownCheck = some .pass → s.m.pair.heard = none → s.m.pair.checkAt + s.m.rd .LINK_PAIR_GRACE ≤ s.m.tick →
      exec .pairGraceExpiry s = .next (s.onMach (fun m =>
        let k : Mach := ({ m.wr .LINK_PAIR_STATE 3 with pair := { m.pair with ownCheck := none, twinCheck := none } } : Mach).inc .LINK_PAIR_LOST
        k.post ⟨0, 0, 0, 4, m.rd .LINK_PAIR_PORT, fkPairLost⟩)))

/-- Timers of the links and of time: a held seal lands with ST_SEAL_TIMEOUT at its limit; a closed transfer is released 10,000 ticks on; requests past the reply limit end with ST_LINK_LOST; SYNC
goes out on every UP port of a grandmaster and of a LOCKED block; silence ends LOCKED in HOLDOVER and ACQUIRING in FREE, and a second of it HOLDOVER in FREE (R74, R295, R298, R299). -/
def Obligations.LinkTimersExpire : Prop :=
  ∀ (s : State) (src p q x : Nat) (t : Transfer), s.m.awake = true → src < 1024 → p < 16 → q < 20 → x < 65536 →
    (∀ h l, s.m.transfer src p x = some t → t.held = some h → h.limit = some l → l ≤ s.m.tick →
      exec (.sealHoldExpiry src p x) s = .next (s.onMach (fun m => m.landSeal t h stSealTimeout))) ∧
    (∀ c, s.m.transfer src p x = some t → t.closedAt = some c → c + 10000 ≤ s.m.tick → t.held = none →
      exec (.transferCloseExpiry src p x) s = .next (s.onMach (fun m =>
        { m with transfers := m.transfers.filter (fun u => !u.is src p x), frags := m.frags.filter (fun g => !g.is src p x) }))) ∧
    (∀ c, s.m.sq.issued = [c] → c.part = p → c.queue = q → c.result = none → (∃ r ∈ s.m.requests, r.cmdId = c.id) → c.tick + s.m.rd .LINK_GCTL_REPLYLIM ≤ s.m.tick →
      exec (.replyLimitExpiry p q) s = .next (s.onMach (fun m => ({ m with requests := m.requests.filter (fun r => r.cmdId != c.id) } : Mach).setIssued { c with result := some stLinkLost }))) ∧
    (∀ gm dist, (s.m.rd .TIME_CTL_ROLE = 1 ∧ gm = s.m.rd .GLOBAL_BLOCK_NUM ∧ dist = 0) ∨ (s.m.rd .TIME_CTL_ROLE ≠ 1 ∧ s.m.rd .TIME_SYNC_STATE = 2 ∧ gm = s.m.time.sync.gm ∧ dist = s.m.time.sync.dist + 1) →
      exec .syncSendTimer s = .next (s.onMach (fun m => m.upPorts.foldl (fun k n =>
        Mach.enqueue k n 2 (k.hopFrame 2 (toBytes 8 0 ++ toBytes 2 gm ++ toBytes 1 dist ++ List.replicate 21 0)) none) m))) ∧
    (∀ (m : Mach) (e : TxEntry), e.cls = 2 → m.outFrame e = (m, { e.frame with data := toBytes 8 m.time.ns ++ e.frame.data.drop 8 })) ∧
    (s.m.rd .TIME_CTL_ROLE = 0 → s.m.liveSources = [] →
      (s.m.rd .TIME_SYNC_STATE = 2 → exec .syncSilenceTimeout s = .next (s.onMach (fun m => m.syncTo 3))) ∧
      (s.m.rd .TIME_SYNC_STATE = 1 → exec .syncSilenceTimeout s = .next (s.onMach (fun m => m.syncTo 0)))) ∧
    (s.m.rd .TIME_CTL_ROLE = 0 → s.m.rd .TIME_SYNC_STATE = 3 → s.m.time.sync.since + 10000000 ≤ s.m.tick →
      exec .holdoverTimeout s = .next (s.onMach (fun m => m.syncTo 0)))

/-- Ports: an UP port sends its next frame and counts it; loss of signal fails a port in service or in training; a frame beyond correction is counted and recorded, marks its partition, and the
ninth in a millisecond fails the port; a FAILED port retrains unless held; RETRAIN trains an enabled port; training ends UP with the neighbour's identity, or FAILED; a plug's removal stops the
lasers of an enabled port and fails it in service, its insertion starts them (R286, R292, R300, R301, R308, R419). -/
def Obligations.PortsFollowTheirLinks : Prop :=
  ∀ (s : State) (n : Nat), n < 16 → s.m.resets.cold = false →
    let st := s.m.rd .LINK_STATE_STATE n
    let failed (m : Mach) : Mach := ((m.wr .LINK_STATE_STATE 3 n).post ⟨0, 0, 0, 4, n, fkLinkDown⟩).dropQueue n
    (∀ e, s.m.portUp n = true → s.m.nextFrame n = some e → e.owner = none → exec (.outputPortSend n) s = .next (s.onMach (fun m =>
      let r := ({ m with txq := m.txq.erase e } : Mach).outFrame e
      (r.1.inc .LINK_TXFRAMES_COUNT 1 n).emit (.frame n r.2)))) ∧
    (∀ e id, s.m.portUp n = true → s.m.nextFrame n = some e → e.owner = some id → e.frame.carries = true → exec (.outputPortSend n) s = .next (s.onMach (fun m =>
      let r := ({ m with txq := m.txq.erase e } : Mach).outFrame e
      let k := ((r.1.inc .LINK_TXFRAMES_COUNT 1 n).emit (.frame n r.2)).frameLeft id e.frame.len
      if k.isAsap (some id) = true then k.takeOutWhere causeAsap (fun c => c.sched != 0 && k.txq.any (fun x => x.port == n && x.owner == some c.id)) else k))) ∧
    (st = 1 ∨ st = 2 → exec (.linkSignalLoss n) s = .next (s.onMach failed)) ∧
    (st ≠ 1 → st ≠ 2 → exec (.linkSignalLoss n) s = .next s) ∧
    (∀ f, s.m.portUp n = true →
      let m := ((s.m.inc .LINK_FEC_FAIL 1 n).post ⟨0, 0, 0, 4, n, fkLinkFec⟩).setCauses f.dstPart causeFec
      let k := m.takeOutWhere causeFec (fun c => [f.dstPart].contains c.part && m.onPort n c)
      let l := if f.dstBlock = k.rd .GLOBAL_BLOCK_NUM ∧ routeHops f.route ≤ f.hidx then k.frameLost f else k
      let times := l.tick :: l.recentFec n
      exec (.linkFecFail n (some f)) s = .next (s.onMach (fun _ =>
        let k : Mach := { l with fecTimes := put natBefore n times l.fecTimes }
        if 8 < times.length then failed k else k))) ∧
    (st = 3 → s.m.flag .LINK_CTL_HOLD n = false → s.m.plugged n = true → exec (.linkRetrainTimer n) s = .next (s.onMach (fun m => m.wr .LINK_STATE_STATE 1 n))) ∧
    (st = 3 → s.m.flag .LINK_CTL_HOLD n = true → exec (.linkRetrainTimer n) s = .next s) ∧
    (∀ who, s.m.serves who (0x03000010 + n * 0x10000) = true →
      (s.m.flag .LINK_CTL_ENABLE n = true → exec (.linkRetrain who n) s = .next (s.onMach (fun m => (m.dropQueue n).wr .LINK_STATE_STATE 1 n))) ∧
      (s.m.flag .LINK_CTL_ENABLE n = false → exec (.linkRetrain who n) s = .next s)) ∧
    (s.m.trains n = true →
      (∀ nb np fib, exec (.linkTrainingDone n (.up nb np fib)) s = .next (s.onMach (fun m =>
        ((((m.wr .LINK_STATE_STATE 2 n).wr .LINK_STATE_NBLOCK nb n).wr .LINK_STATE_NPORT np n).wr .LINK_STATE_FIBRE fib n).setDom (portDom n) ⟨2, false, 0, 0⟩))) ∧
      exec (.linkTrainingDone n .tooLong) s = .next (s.onMach (fun m => failed (m.post ⟨0, 0, 0, 4, n, fkLinkLength⟩))) ∧
      exec (.linkTrainingDone n .fail) s = .next (s.onMach failed)) ∧
    (s.m.plugged n = true → s.m.flag .LINK_CTL_ENABLE n = true → exec (.plugRemoval n) s = .next (s.onMach (fun m =>
      let k := ({ m with unplugged := nset (fun _ => false) m.unplugged n true } : Mach).emit (.pin (16 + n) false)
      if st = 1 ∨ st = 2 then failed k else k))) ∧
    (s.m.plugged n = false → exec (.plugInsertion n) s = .next (s.onMach (fun m =>
      let k : Mach := { m with unplugged := nset (fun _ => false) m.unplugged n false }
      if k.flag .LINK_CTL_ENABLE n = true then k.emit (.pin (16 + n) true) else k)))

/-! ## The host port and the far tier (file 12) -/

/-- CXL.mem: the decoder takes 384 GiB one way and nothing else; a read outside it answers poison, a write there is dropped and done, and once committed the address is counted as refused; within
one 256 B granule, the granule of a sealed partition denies the host, counted, with poison or nothing, and any other access goes to its bank at its address in the striped view (R313, R314, R370). -/
def Obligations.HostMemoryAccesses : Prop :=
  ∀ (s : State) (a n size ways : Nat) (bs : Bytes), s.m.answers .host = true →
    let miss (m : Mach) : Mach := if s.m.flag .UCIE_STAT_HDMCOMMIT = true then m.badAcc else m
    (exec (.hdmCommit (384 * 2 ^ 30) 1) s = .next (s.onMach (fun m => { m.wr .UCIE_STAT_HDMCOMMIT 1 with hdmError := false }))) ∧
    (size ≠ 384 * 2 ^ 30 ∨ ways ≠ 1 → exec (.hdmCommit size ways) s = .next (s.onMach (fun m => { m.wr .UCIE_STAT_HDMCOMMIT 0 with hdmError := true }))) ∧
    (s.m.flag .UCIE_STAT_HDMCOMMIT = false ∨ 384 * 2 ^ 30 < a + n →
      exec (.cxlMemRead a n) s = .next (s.onMach (fun m => ((miss m).inc .UCIE_POISON_COUNT).emit (.cxlData [] true)))) ∧
    (s.m.flag .UCIE_STAT_HDMCOMMIT = false ∨ 384 * 2 ^ 30 < a + bs.length → exec (.cxlMemWrite a bs) s = .next (s.onMach (fun m => (miss m).emit .cxlDone))) ∧
    (∀ c, s.m.flag .UCIE_STAT_HDMCOMMIT = true → s.m.canon a = some c →
      (0 < n → a % 256 + n ≤ 256 → a + n ≤ 384 * 2 ^ 30 →
        (s.m.granuleSealed c = true → exec (.cxlMemRead a n) s = .next (s.onMach (fun m => (m.countDenied.inc .UCIE_POISON_COUNT).emit (.cxlData [] true)))) ∧
        (s.m.granuleSealed c = false → exec (.cxlMemRead a n) s = .next (s.onMach (fun m => m.hostAccess ⟨true, a, n, none, 0, 0, false⟩)))) ∧
      (bs ≠ [] → a % 256 + bs.length ≤ 256 → a + bs.length ≤ 384 * 2 ^ 30 →
        (s.m.granuleSealed c = true → exec (.cxlMemWrite a bs) s = .next (s.onMach (fun m => m.countDenied.emit .cxlDone))) ∧
        (s.m.granuleSealed c = false → exec (.cxlMemWrite a bs) s = .next (s.onMach (fun m => m.hostAccess ⟨true, a, bs.length, some bs, 0, 0, false⟩)))))

/-- Messages beside CXL.mem: each command of the memory-device mailbox and of DOE is answered, every other opcode with Unsupported; the sideband gives the identity and the temperatures, and its
mailbox belongs to the recovery core, in Twilight alone. The bodies that other standards lay out are free (log entries 9 and 19). A module of the host port that fails is in state 3 and recorded,
traffic goes on over those that trained and the rate falls to 0 with the last; training that all modules pass leaves them in state 2 at 32 GT/s; a retry is counted while the port is up (R309 to R312). -/
def Obligations.HostPortMessagesAndModules : Prop :=
  (∀ (s : State) (op idx : Nat) (req : Bytes),
      (s.m.answers .host = true →
        exec .identifyMemoryDevice s = .next (s.onMach (fun m => m.emit (.message msgMemoryDevice (Config.messageBody 1 [] m.deviceReport)))) ∧
        exec .getSupportedLogs s = .next (s.onMach (fun m => m.emit (.message msgMemoryDevice (Config.messageBody 2 [] m.deviceReport)))) ∧
        exec (.getLog req) s = .next (s.onMach (fun m => m.emit (.message msgMemoryDevice (Config.messageBody 3 req m.deviceReport)))) ∧
        exec .getHealthInfo s = .next (s.onMach (fun m => m.emit (.message msgMemoryDevice (Config.messageBody 4 [] m.deviceReport)))) ∧
        exec (.mailboxUnsupported op) s = .next (s.onMach (fun m => m.emit (.mboxUnsupported op))) ∧
        exec (.doeDiscovery idx) s = .next (s.onMach (fun m => m.emit (.message msgDoe (Config.messageBody 5 (toBytes 1 idx) m.deviceReport)))) ∧
        exec (.cdatRead req) s = .next (s.onMach (fun m => m.emit (.message msgDoe (Config.messageBody 6 req m.deviceReport))))) ∧
      (s.m.resets.cold = false →
        exec .sidebandIdentity s = .next (s.onMach (fun m => m.emit (.message msgIdentity
          (toBytes 8 (m.rd .GLOBAL_ID_VENDOR + m.rd .GLOBAL_ID_DEVICE * 2 ^ 16) ++
            toBytes 8 (m.rd .GLOBAL_REV_STEP + m.rd .GLOBAL_REV_ROM * 2 ^ 8 + m.rd .GLOBAL_REV_OPTVALID * 2 ^ 24) ++ toBytes 8 (m.rd .GLOBAL_BLOCK_NUM))))) ∧
        exec .sidebandTemperature s = .next (s.onMach (fun m => m.convert (List.range 24) .sideband)) ∧
        (s.m.twilight = false → exec (.mailboxWrite req) s = .next (s.onMach (fun m => m.emit (.message msgMailbox [])))) ∧
        (s.m.twilight = true → exec (.mailboxWrite req) s = .next (s.onMach (fun m => { m with trust := { m.trust with mailIn := m.trust.mailIn ++ [slice req 0 64] } }))) ∧
        (s.m.twilight = false ∨ s.m.trust.mailOut = [] → exec .mailboxRead s = .next (s.onMach (fun m => m.emit (.message msgMailbox [])))) ∧
        (∀ b rest, s.m.twilight = true → s.m.trust.mailOut = b :: rest →
          exec .mailboxRead s = .next (s.onMach (fun m => ({ m with trust := { m.trust with mailOut := rest } } : Mach).emit (.message msgMailbox b)))))) ∧
  (∀ (s : State) (k : Nat) (flit : Bool), s.m.awake = true → k < 4 →
      exec (.ucieModuleFail k) s = .next (s.onMach (fun m => ((m.wr .UCIE_MOD_STATE 3 k).post ⟨0, 0, 0, 5, k, fkUcieMod⟩).setMods)) ∧
      (∀ m : Mach, (∀ j < 4, m.rd .UCIE_MOD_STATE j ≠ 2) → m.setMods = (m.wr .UCIE_STAT_MODS 0).wr .UCIE_STAT_RATE 0) ∧
      (∀ r0 r1 r2 r3, s.m.twilight = false →
        exec (.ucieTrainingDone [some (true, r0), some (true, r1), some (true, r2), some (true, r3)] flit) s = .next (s.onMach (fun m =>
          let m := (((m.wr .UCIE_MOD_STATE 2 0).wr .UCIE_MOD_REPAIRED r0 0).wr .UCIE_MOD_STATE 2 1).wr .UCIE_MOD_REPAIRED r1 1
          let m := (((m.wr .UCIE_MOD_STATE 2 2).wr .UCIE_MOD_REPAIRED r2 2).wr .UCIE_MOD_STATE 2 3).wr .UCIE_MOD_REPAIRED r3 3
          ((({ m with ucieSlow := [] } : Mach).wr .UCIE_STAT_MODS 15).wr .UCIE_STAT_RATE 2).wr .UCIE_STAT_FLIT (b2n flit)))) ∧
      (s.m.hostUp = true → exec .linkLevelRetry s = .next (s.onMach (fun m => (m.inc .UCIE_ERR_CRC).inc .UCIE_ERR_RETRY))))

/-- The far-tier port: enabled by firmware it trains its links with their reset released, disabled it ends every access with ST_FAR_DOWN; a port without one usable expander has failed; an access
ends with its data, with ST_UE for poison, ST_FAR_AUTH for a failed check, each counted and recorded, or ST_FAR_DOWN at its time limit, its expander then in state 4 (R319 to R323). -/
def Obligations.FarTierPort : Prop :=
  ∀ (s : State) (who : Requester) (slot e : Nat), e < 4 →
    (s.m.serves who 0x03180000 = true →
      (s.m.flag .FARCXL_CTL_ENABLE = false → s.m.firmware = true → exec (.farPortEnable who 1) s = .next (s.onMach (fun m =>
        let k := ((m.wr .FARCXL_CTL_ENABLE 1).wr .FARCXL_STAT_STATE 1).startDom farDom
        (List.range k.farLinks).foldl (fun m e => (m.wr .FARCXL_EXP_STATE 1 e).emit (.pin (pinFarPerst e) true)) k))) ∧
      (s.m.flag .FARCXL_CTL_ENABLE = false ∧ s.m.firmware = false → exec (.farPortEnable who 1) s = .next s) ∧
      (s.m.flag .FARCXL_CTL_ENABLE = true → exec (.farPortEnable who 1) s = .next s) ∧
      (s.m.flag .FARCXL_CTL_ENABLE = true → s.m.farOps = [] → exec (.farPortEnable who 0) s = .next (s.onMach (fun m =>
        let k := (((m.wr .FARCXL_CTL_ENABLE 0).wr .FARCXL_STAT_STATE 0).wr .FARCXL_STAT_GIB 0).stopDom farDom
        (List.range 4).foldl (fun m e =>
          let m := if e < m.farLinks then m.emit (.pin (pinFarPerst e) false) else m
          ((((m.wr .FARCXL_EXP_STATE 0 e).wr .FARCXL_EXP_WIDTH 0 e).wr .FARCXL_EXP_RATE 0 e).wr .FARCXL_EXP_GIB 0 e).wr .FARCXL_EXP_BASE 0 e) k)))) ∧
    (s.m.awake = true →
      (s.m.rd .FARCXL_STAT_STATE = 1 → s.m.rd .FARCXL_CTL_BIF = 0 →
        (∀ x : FarExpander, x.present = true → x.accepted = true → s.m.rd .FARCXL_STAT_GIB = 0 → exec (.farPortUp [x]) s = .next (s.onMach (fun m =>
          let gib := min (x.bytes / 2 ^ 30) 4096
          let k := ((((m.wr .FARCXL_EXP_WIDTH (linkWidth x.lanes) 0).wr .FARCXL_EXP_RATE (if x.fast then 2 else 1) 0).wr .FARCXL_EXP_STATE 2 0).wr .FARCXL_EXP_BASE 0 0).wr .FARCXL_EXP_GIB gib 0
          ((k.wr .FARCXL_STAT_GIB gib).wr .FARCXL_STAT_STATE 2).setDom farDom ⟨2, false, 0, 0⟩))) ∧
        (∀ x : FarExpander, x.present = true → x.accepted = false →
          let k := (((s.m.wr .FARCXL_EXP_WIDTH (linkWidth x.lanes) 0).wr .FARCXL_EXP_RATE (if x.fast then 2 else 1) 0).wr .FARCXL_EXP_STATE 3 0).post ⟨0, 0, 0, 6, 0, fkFarReject⟩
          (∀ x < 4, k.rd .FARCXL_EXP_STATE x ≠ 2) → exec (.farPortUp [x]) s = .next (s.onMach (fun _ => k.wr .FARCXL_STAT_STATE 3)))) ∧
      (s.m.rd .FARCXL_STAT_STATE ≠ 1 → ∀ es, exec (.farPortUp es) s = .next s) ∧
      (∀ f, s.m.farOldest slot = some f →
        (exec (.farAccessTimeout slot) s = .next (s.onMach (fun m => (m.farLoss f).farFails f stFarDown))) ∧
        (sealVersion (s.m.sealEntry slot) = 0 → f.reads = true → ∀ poison, exec (.farAccessComplete slot poison) s = .next (s.onMach (fun m => m.farWorks f))) ∧
        (∀ x, s.m.farExp slot = some x → s.m.rd .FARCXL_EXP_STATE x = 2 →
          (f.reads = false → ∀ poison, exec (.farAccessComplete slot poison) s = .next (s.onMach (fun m => m.farWorks f))) ∧
          (sealVersion (s.m.sealEntry slot) ≠ 0 → f.reads = true →
            exec (.farAccessComplete slot true) s = .next (s.onMach (fun m => ((m.inc .FARCXL_ERR_POISON).postFar f fkFarPoison).farFails f stUe)) ∧
            (s.m.farReadable f.part slot = false →
              exec (.farAccessComplete slot false) s = .next (s.onMach (fun m => ((m.inc .FARCXL_ERR_AUTH).postFar f fkFarAuth).farFails f stFarAuth))) ∧
            (s.m.farReadable f.part slot = true → exec (.farAccessComplete slot false) s = .next (s.onMach (fun m => m.farWorks f)))))) ∧
      (∀ k : FarOp, k.reads = (k.kind == .restore || k.kind == .copyRead || (k.kind == .copyWrite && k.mask != 2 ^ 8192 - 1))) ∧
      (s.m.rd .FARCXL_EXP_STATE e ≠ 2 → ∀ sent, exec (.farLinkDown e sent) s = .next s) ∧
      (s.m.rd .FARCXL_EXP_STATE e = 2 → (∀ f ∈ s.m.farOps, s.m.farExp f.slot ≠ some e) → ∀ sent, exec (.farLinkDown e sent) s = .next (s.onMach (fun m =>
        ((m.inc .FARCXL_ERR_TIMEOUT).post ⟨0, 0, 0, 6, e, fkFarDown⟩).wr .FARCXL_EXP_STATE 4 e))))

/-! ## Integrity and faults (file 13) -/

/-- Faults: ACK closes its partition's slot and nothing else; a bit of FAULT_STOP that stands clears with its START, and no other; a mismatch of the sequencers and an error of the seam halt the
block; one of the management cores stops its pair once, while their lockstep is on (R346, R348, R351, R353). -/
def Obligations.FaultsAreAnsweredAndHalt : Prop :=
  ∀ (s : State) (who : Requester) (p k : Nat), p < 16 → k < 2 →
    (s.m.serves who 0x00800010 = true → exec (.faultAck who p) s = .next (s.onMach (fun m => m.clrB .FAULT_STATUS_OPEN p))) ∧
    (s.m.serves who 0x00800018 = true →
      (∀ mask, (∀ q < 16, bit mask q = true → bit (s.m.rd .FAULT_STOP_STOPPED) q = false) → exec (.faultStopClear who mask) s = .next s) ∧
      (bit (s.m.rd .FAULT_STOP_STOPPED) p = true →
        exec (.faultStopClear who (2 ^ p)) s = .next (s.onMach (fun m => (m.clrB .FAULT_STOP_STOPPED p).sendStop 4 (2 ^ p))))) ∧
    (s.m.awake = true →
      exec .lockstepMismatch s = .next (s.onMach (fun m => ((List.range 16).foldl (fun m p => m.post ⟨p, 0, 0, 10, p, fkLockstepSeq⟩) m).reactHalt)) ∧
      exec (.seamCrcError k) s = .next (s.onMach (fun m => ((List.range 16).foldl (fun m p => m.post ⟨p, 0, 0, 12, k, fkSeamCrc⟩) m).reactHalt)) ∧
      (s.m.flag .FAULT_CFG_LOCKSTEP = true → bit s.m.trust.mcStopped k = false → exec (.mcLockstepMismatch k) s = .next (s.onMach (fun m =>
        ({ m with trust := { m.trust with mcStopped := setBit m.trust.mcStopped k } } : Mach).post ⟨0, 0, 0, 7, 2 * k, fkLockstepMc⟩))) ∧
      (s.m.flag .FAULT_CFG_LOCKSTEP = false ∨ bit s.m.trust.mcStopped k = true → exec (.mcLockstepMismatch k) s = .next s))

/-- Retirements: a row takes the next spare of its bank and its copy waits, one at a time; with none left it is refused and recorded; each idle slot of the cool calendar reads the row, then writes it
and ends it, recorded; a bank goes offline at once, or at its yield point where an item holds it; a stack takes state 2 and all its banks with it (R337, R338). -/
def Obligations.RetirementsTakeEffect : Prop :=
  ∀ (s : State) (who : Requester) (n b row : Nat), n < 12 → b < 512 → row < 32768 →
    (s.m.serves who 0x00800020 = true →
      let m := (((s.m.wr .FAULT_RETIRE_KIND 1).wr .FAULT_RETIRE_STACK n).wr .FAULT_RETIRE_BANK b).wr .FAULT_RETIRE_ROW row
      (s.m.rowCopy ≠ none → exec (.retireRow who n b row) s = .next (s.onMach (fun _ => m.wr .FAULT_RETST_REFUSED 1))) ∧
      (s.m.rowCopy = none → 32 ≤ s.m.sparesUsed n b →
        exec (.retireRow who n b row) s = .next (s.onMach (fun _ => ((m.wr .FAULT_RETST_REFUSED 1).wr .FAULT_RETST_SPARES 0).post ⟨0, 0, 0, 1, n, fkSpareOut⟩))) ∧
      (s.m.rowCopy = none → s.m.sparesUsed n b < 32 → exec (.retireRow who n b row) s = .next (s.onMach (fun _ =>
        let k := m.setStack n { m.stack n with sparesUsed := nset (fun _ => 0) (m.stack n).sparesUsed b (s.m.sparesUsed n b + 1) }
        { (k.wr .FAULT_RETST_BUSY 1).wr .FAULT_RETST_SPARES (32 - s.m.sparesUsed n b - 1) with rowCopy := some ⟨n, b, row, false⟩ }))) ∧
      (exec (.retireBank who n b) s = .next (s.onMach (fun m => (m.setRetire 2 n b (m.rd .FAULT_RETIRE_ROW)).offlineBank n b))) ∧
      (exec (.retireStack who n) s = .next (s.onMach (fun m =>
        (List.range 512).foldl (fun m b => m.offlineBank n b) ((m.setRetire 3 n (m.rd .FAULT_RETIRE_BANK) (m.rd .FAULT_RETIRE_ROW)).wr .STACK_ID_STATE 2 n))))) ∧
    (s.m.awake = true →
      (s.m.rowCopy = none → exec .rowCopySlot s = .next s) ∧
      (∀ r, s.m.rowCopy = some r →
        ((s.m.stack r.stack).hot = true → exec .rowCopySlot s = .next s) ∧
        ((s.m.stack r.stack).hot = false → r.read = false → exec .rowCopySlot s = .next (s.onMach (fun m =>
          { m.noteRead true (bankAddr r.stack r.bank (r.row * 2048)) 2048 with rowCopy := some { r with read := true } }))) ∧
        ((s.m.stack r.stack).hot = false → r.read = true → exec .rowCopySlot s = .next (s.onMach (fun m =>
          let k := m.correctRow r.stack r.bank r.row
          let k := k.setStack r.stack { k.stack r.stack with remapped := (r.bank * 32768 + r.row) :: (k.stack r.stack).remapped }
          ((({ k with rowCopy := none } : Mach).wr .FAULT_RETST_BUSY 0).wr .FAULT_RETST_DONE 1).post ⟨0, 0, 0, 1, r.stack, fkRetired⟩)))))

/-- Checks: GO starts a self-check that drains every resident partition, does nothing while one runs, and is absent until firmware has started; it ends, once all have drained, with its result, its duration and a record of a failure; each
part that fails a test takes its own reaction, in the periodic test while DIAGEN is 1; error injection is for test mode, and refused and counted elsewhere (R18, R341 to R343, R355). -/
def Obligations.SelfChecksAndInjection : Prop :=
  ∀ (s : State) (who : Requester) (failed : List CheckerPart) (a y : Nat), failed.all checkerOk = true →
    (s.m.serves who 0x00800030 = true →
      (s.m.firmware = false → exec (.selfCheckGo who) s = .next (s.onMach (fun m => m.inc .GLOBAL_BADACC_COUNT))) ∧
      (s.m.firmware = true → s.m.flag .FAULT_SELF_BUSY = true → exec (.selfCheckGo who) s = .next s) ∧
      (s.m.firmware = true → s.m.flag .FAULT_SELF_BUSY = false → exec (.selfCheckGo who) s = .next (s.onMach (fun m =>
        ((List.range 16).filter m.resident).foldl (fun k p => (k.preempt p p).drainStart p)
          { m.wr .FAULT_SELF_BUSY 1 with selfCheck := some ⟨m.tick, (List.range 16).filter m.resident, false⟩ })))) ∧
    (s.m.serves who 0x00800038 = true →
      (s.m.flag .RST_MODE_TEST = true →
        exec (.faultInjArm who a y) s = .next (s.onMach (fun m => ((m.wr .FAULT_INJ_ADDR a).wr .FAULT_INJ_SYMS y).wr .FAULT_INJ_ARM 1))) ∧
      (s.m.flag .RST_MODE_TEST = false → exec (.faultInjArm who a y) s = .next (s.onMach (fun m => m.inc .GLOBAL_BADACC_COUNT)))) ∧
    (s.m.awake = true →
      (s.m.flag .FAULT_CFG_DIAGEN = true → exec (.diagTest failed) s = .next (s.onMach (fun m => failed.foldl Mach.checkerFails m))) ∧
      (s.m.flag .FAULT_CFG_DIAGEN = false → exec (.diagTest failed) s = .next s) ∧
      (s.m.selfCheck = none → exec (.selfCheckDone failed) s = .next s) ∧
      (∀ c, s.m.selfCheck = some c →
        (s.m.selfDrained c = false → exec (.selfCheckDone failed) s = .next s) ∧
        (s.m.selfDrained c = true → failed = [] → c.faulted = false →
          let k := (((s.m.wr .FAULT_SELF_BUSY 0).wr .FAULT_SELF_RESULT 1).wr .FAULT_SELF_LASTDUR ((s.m.tick - c.start) / 10)).switchBack c
          (k.flag .LINK_PAIR_ENABLE = false → exec (.selfCheckDone failed) s = .next (s.onMach (fun _ => k))) ∧
          (k.flag .LINK_PAIR_ENABLE = true → exec (.selfCheckDone failed) s = .next (s.onMach (fun _ => k.pairResult .pass)))) ∧
        (s.m.selfDrained c = true → failed ≠ [] ∨ c.faulted = true →
          let k := ((((s.m.wr .FAULT_SELF_BUSY 0).wr .FAULT_SELF_RESULT 2).wr .FAULT_SELF_LASTDUR ((s.m.tick - c.start) / 10)).post ⟨0, 0, 0, 7, 0, fkSelfcheck⟩).switchBack c
          (k.flag .LINK_PAIR_ENABLE = false → exec (.selfCheckDone failed) s = .next (s.onMach (fun _ => failed.foldl Mach.checkerFails k))) ∧
          (k.flag .LINK_PAIR_ENABLE = true → exec (.selfCheckDone failed) s = .next (s.onMach (fun _ => k.pairResult .fail))))))

/-! ## Trust (file 14) -/

/-- Firmware: GO copies the image and verifies it, unless a verification or firmware runs; a copy with an unreadable unit is empty, and in Twilight the image is what came through the mailbox, its first
LEN bytes, an empty one failing at once; the check ends with the status and the fault of the first failure, or with the image's SVN and the image as the firmware that runs, and outside Twilight with STATE
3 or 2; STARTED is set once, and ends a start, or in Twilight declares recovery firmware (R356, R404, R405). -/
def Obligations.FirmwareIsVerifiedAndStarts : Prop :=
  ∀ (s : State) (who : Requester) (len : Nat),
    (s.m.serves who 0x00C00008 = true →
      let m := s.m.wr .SEC_BOOT_LEN len
      let a := m.rd .SEC_BOOT_ADDR
      let n := m.rd .SEC_BOOT_LEN
      let img := m.trust.mailIn.flatten.take n
      let k : Mach := { m with trust := { m.trust with image := img, mailIn := [] } }
      (s.m.verifying = true ∨ s.m.firmware = true → exec (.firmwareBootGo who len) s = .next s) ∧
      (s.m.verifying = false → s.m.firmware = false → s.m.twilight = false → exec (.firmwareBootGo who len) s = .next (s.onMach (fun _ =>
        let k := (m.noteRead false a n).wr .SEC_BOOT_STATE 1
        { k with trust := { k.trust with image := if m.readUe false a n = true then [] else m.read false a n } }))) ∧
      (s.m.verifying = false → s.m.firmware = false → s.m.twilight = true →
        (img ≠ [] → exec (.firmwareBootGo who len) s = .next (s.onMach (fun _ => k))) ∧
        (img = [] → exec (.firmwareBootGo who len) s = .next (s.onMach (fun _ => (k.wr .SEC_BOOT_STATUS stAuthFail).post ⟨0, 0, 0, 8, 0, fkFwSig⟩))))) ∧
    (s.m.awake = true →
      let m : Mach := { s.m with trust := { s.m.trust with image := [] } }
      let fails := imageFails s.m.twilight s.nv.arb s.m.trust.image
      let state (v : Nat) : Mach := if s.m.twilight = true then m else m.wr .SEC_BOOT_STATE v
      (s.m.verifying = false → exec .firmwareVerifyDone s = .next s) ∧
      (∀ e, s.m.verifying = true → fails = some e → exec .firmwareVerifyDone s = .next (s.onMach (fun _ => ((state 3).wr .SEC_BOOT_STATUS e.1).post ⟨0, 0, 0, 8, 0, e.2⟩))) ∧
      (s.m.verifying = true → fails = none → exec .firmwareVerifyDone s = .next (s.onMach (fun _ =>
        let k := ((state 2).wr .SEC_BOOT_STATUS stOk).wr .SEC_BOOT_SVN (field s.m.trust.image 5 1)
        { k with trust := { k.trust with firmware := s.m.trust.image } })))) ∧
    (s.m.serves who 0x00C00010 = true →
      (s.m.flag .SEC_BOOT_STARTED = true → exec (.firmwareStarted who) s = .next s) ∧
      (s.m.flag .SEC_BOOT_STARTED = false → s.m.twilight = false → exec (.firmwareStarted who) s = .next (s.onMach (fun m =>
        ((m.wr .SEC_BOOT_STARTED 1).wr .RST_START_FAILS 0).wr .RST_START_LASTMS (((m.time.ns : Int) - m.trust.releaseNs) / 1000000).toNat))) ∧
      (s.m.flag .SEC_BOOT_STARTED = false → s.m.twilight = true → exec (.firmwareStarted who) s = .next (s.onMach (fun m =>
        { m.wr .SEC_BOOT_STARTED 1 with resets := { m.resets with recovered := true } }))))

/-- The option store: a write that fits takes its data and converts zone 0 first, any other and one while a write runs is counted; it ends with its bytes in the store, or, where it changes the
owner record without the owner's signature, with the store as it was; the loader applies the store before the host port and firmware, and not after (R360 to R362). -/
def Obligations.OptionStoreWritesAndLoads : Prop :=
  ∀ (s : State) (who : Requester) (offset len : Nat),
    (s.m.serves who 0x00C00040 = true → offset < 65536 → len ≤ 65536 →
      let m := (s.m.wr .SEC_OPT_OFFSET offset).wr .SEC_OPT_LEN len
      let o := m.rd .SEC_OPT_OFFSET
      let n := m.rd .SEC_OPT_LEN
      let a := m.rd .SEC_OPT_SRC
      (m.flag .SEC_OPTST_BUSY = true ∨ m.optWriteOk o n = false → exec (.optionStoreWrite who offset len) s = .next (s.onMach (fun _ => m.inc .GLOBAL_BADACC_COUNT))) ∧
      (m.flag .SEC_OPTST_BUSY = false → m.optWriteOk o n = true → m.readUe false a n = false →
        exec (.optionStoreWrite who offset len) s = .next (s.onMach (fun _ =>
          ({ (m.noteRead false a n).wr .SEC_OPTST_BUSY 1 with trust := { m.trust with optWrite := some ⟨o, m.read false a n⟩ } } : Mach).convert [0] .option)))) ∧
    (s.m.awake = true → ∀ w, s.m.trust.optWrite = some w → (∀ k ∈ s.m.power.convs, k.owner ≠ .option) →
      let m : Mach := { s.m.wr .SEC_OPTST_BUSY 0 with trust := { s.m.trust with optWrite := none } }
      let new := s.nv.putOpt w.offset w.data
      (w.offset + w.data.length ≤ 0xF000 ∨ 0xF080 ≤ w.offset ∨ NonVol.ownerOk s.nv new = true →
        exec .optionStoreWriteDone s = .next { s with nv := new, m := m.wr .SEC_OPTST_STATUS stOk }) ∧
      (w.offset < 0xF080 → 0xF000 < w.offset + w.data.length → NonVol.ownerOk s.nv new = false →
        exec .optionStoreWriteDone s = .next { s with m := (m.wr .SEC_OPTST_STATUS stAuthFail).post ⟨0, 0, 0, 8, 0, fkOwner⟩ })) ∧
    (s.m.awake = true →
      (s.m.hostUp = true ∨ s.m.firmware = true → exec .optionLoad s = .next s) ∧
      (s.m.hostUp = false → s.m.firmware = false → s.nv.imageValid = false → s.nv.owned = true → exec .optionLoad s = .next (s.onMach (fun m =>
        let k := m.applyMaps s.nv
        ({ k.wr .GLOBAL_REV_OPTVALID 0 with trust := { k.trust with optImage := [] } } : Mach).post ⟨0, 0, 0, 8, 0, fkOptSig⟩))) ∧
      (s.m.hostUp = false → s.m.firmware = false → s.nv.imageValid = false → s.nv.owned = false → exec .optionLoad s = .next (s.onMach (fun m =>
        let k := m.applyMaps s.nv
        { k.wr .GLOBAL_REV_OPTVALID 0 with trust := { k.trust with optImage := [] } }))))

/-- SPDM and KEYAGREE over the sideband of a block in Twilight: each request is answered, as the connection then stands, with what the block reports for it; KEYAGREE with a sound request loads the key
derived from the exchange and answers with its own key and a signature, and with an unsound one records a fault and answers nothing (R363, R364, R366). Layouts that DMTF fixes are free (log entry 9). -/
def Obligations.SecureMessagesAreAnswered : Prop :=
  ∀ (s : State) (req : Bytes) (k : KeyReq), s.m.awake = true → s.m.twilight = true →
    let t : Transport := .sideband
    let done (n : Nat) : State := s.onMach (fun m =>
      let body := Config.messageBody (0x10 + n) req (m.spdmReport s.nv t n req)
      (m.setSpdm t ((m.spdm t).after n req body)).spdmAnswer t body)
    exec (.getVersion t req) s = .next (done 0) ∧ exec (.getCapabilities t req) s = .next (done 1) ∧ exec (.negotiateAlgorithms t req) s = .next (done 2) ∧
    exec (.getDigests t req) s = .next (done 3) ∧ exec (.getCertificate t req) s = .next (done 4) ∧ exec (.challenge t req) s = .next (done 5) ∧
    exec (.getMeasurements t req) s = .next (done 6) ∧ exec (.keyExchange t req) s = .next (done 7) ∧ exec (.finish t req) s = .next (done 8) ∧
    exec (.endSession t req) s = .next (done 9) ∧ exec (.vendorDefinedRequest t req) s = .next (done 10) ∧
    (let seed := Config.random s.m.fresh
     let m : Mach := { s.m with fresh := s.m.fresh + 1 }
     let shared := Config.x25519 seed (slice k.pub 0 32)
     let own := Config.x25519 seed (9 :: List.replicate 31 0)
     let key := slice (Config.sha512 (keyLabel ++ toBytes 1 k.purpose ++ toBytes 1 k.part ++ shared ++ slice k.pub 0 32 ++ own)) 0 32
     (m.keyReqOk k shared = true → exec (.keyagree t k) s = .next (s.onMach (fun _ =>
        (m.loadKey k key).spdmAnswer t (own ++ Config.edSign identitySeed (Config.sha512 (KeyReq.bytes k ++ own ++ Config.sha512 (m.spdm t).lastMeas)))))) ∧
     (m.keyReqOk k shared = false → exec (.keyagree t k) s = .next (s.onMach (fun _ => (m.post ⟨0, 0, 0, 8, 0, fkKeyAgree⟩).spdmAnswer t []))))

/-- Tenants: a measurement needs a read right over its ranges, and ends with their digest, or with ST_UE and the old one; a partition is sealed outside test mode and 0 is never; an import needs its key
and the rights, and ends with its chunks written and ST_OK, or ST_AUTH_FAIL and a record (R365, R368, R371). -/
def Obligations.TenantsMeasureSealAndImport : Prop :=
  ∀ (s : State) (who : Requester) (p len : Nat), p < 16 →
    (s.m.serves who (0x00C20090 + p * 0x100) = true → s.m.flag .SEC_TENANT_WMEASCTL_BUSY p = false →
      ((∀ x ∈ s.m.measured p, s.m.grantedTo p false (x.1 + x.2) 256 x.1 = true) →
        exec (.weightMeasureGo who p) s = .next (s.onMach (fun m => (m.wr .SEC_TENANT_WMEASCTL_BUSY 1 p).wr .SEC_TENANT_WMEASCTL_LEAVES 0 p))) ∧
      (∀ x ∈ s.m.measured p, s.m.grantedTo p false (x.1 + x.2) 256 x.1 = false →
        exec (.weightMeasureGo who p) s = .next (s.onMach (fun m => m.wr .SEC_TENANT_WMEASCTL_STATUS stDescRights p)))) ∧
    (s.m.awake = true → s.m.flag .SEC_TENANT_WMEASCTL_BUSY p = true →
      let rs := s.m.measured p
      let m := s.m.wr .SEC_TENANT_WMEASCTL_BUSY 0 p
      let k := rs.foldl (fun m x => m.noteRead false x.1 x.2) m
      (∀ x ∈ rs, m.readUe false x.1 x.2 = true → exec (.weightMeasureDone p) s = .next (s.onMach (fun _ => k.wr .SEC_TENANT_WMEASCTL_STATUS stUe p))) ∧
      ((∀ x ∈ rs, m.readUe false x.1 x.2 = false) → exec (.weightMeasureDone p) s = .next (s.onMach (fun _ =>
        let d := (k.wr .SEC_TENANT_WMEASCTL_STATUS stOk p).wr .SEC_TENANT_WMEASCTL_LEAVES (rs.foldl (fun s x => s + leavesOf x.2) 0) p
        let digest := Config.sha512 ((rs.map (fun x => toBytes 8 x.1 ++ toBytes 8 x.2 ++ m.rangeRoot x.1 x.2)).flatten)
        { d with trust := { d.trust with wmeas := nset (fun _ => []) d.trust.wmeas p digest } })))) ∧
    (s.m.serves who (0x00C20000 + p * 0x100) = true →
      (p = 0 → exec (.partitionSeal who p) s = .next s) ∧
      (p ≠ 0 → s.m.flag .RST_MODE_TEST = false → exec (.partitionSeal who p) s = .next (s.onMach (fun m => m.wr .SEC_TENANT_CTL_SEALED 1 p))) ∧
      (p ≠ 0 → s.m.flag .RST_MODE_TEST = true → exec (.partitionSeal who p) s = .next (s.onMach (fun m => m.inc .GLOBAL_BADACC_COUNT)))) ∧
    (s.m.serves who (0x00C200B0 + p * 0x100) = true → s.m.flag .SEC_TENANT_IMPORTST_BUSY p = false → len < 2 ^ 40 →
      let m := s.m.wr .SEC_TENANT_IMPORT_LEN len p
      let n := m.rd .SEC_TENANT_IMPORT_LEN p
      let dst := m.rd .SEC_TENANT_IMPORT_DST p
      let ok := m.grantedTo p true (dst + n) 256 dst && m.importSrcOk (m.rd .SEC_TENANT_IMPORT_SRC p) (n + 16 * ceilDiv n chunkLen)
      (s.m.key 4 p = [] → exec (.importGo who p len) s = .next (s.onMach (fun _ => m.wr .SEC_TENANT_IMPORTST_STATUS stKeyAbsent p))) ∧
      (s.m.key 4 p ≠ [] → ok = false → exec (.importGo who p len) s = .next (s.onMach (fun _ => m.wr .SEC_TENANT_IMPORTST_STATUS stDescRights p))) ∧
      (s.m.key 4 p ≠ [] → ok = true → exec (.importGo who p len) s = .next (s.onMach (fun _ => (m.wr .SEC_TENANT_IMPORTST_BUSY 1 p).wr .SEC_TENANT_IMPORTST_CHUNKS 0 p)))) ∧
    (s.m.awake = true → s.m.flag .SEC_TENANT_IMPORTST_BUSY p = true →
      let r := s.m.importAll p
      let m := (r.1.wr .SEC_TENANT_IMPORTST_BUSY 0 p).wr .SEC_TENANT_IMPORTST_CHUNKS r.2.1 p
      (r.2.2 = false → exec (.importDone p) s = .next (s.onMach (fun _ => m.wr .SEC_TENANT_IMPORTST_STATUS stOk p))) ∧
      (r.2.2 = true → exec (.importDone p) s = .next (s.onMach (fun _ => (m.wr .SEC_TENANT_IMPORTST_STATUS stAuthFail p).post ⟨0, 0, 0, 8, 0, fkImportAuth⟩))))

/-! ## Power and temperature (file 15) -/

/-- Device states: a request above the state in force begins an entry unless a refuser holds, which is counted and shown; one at or below it changes nothing but TARGET, one while the state moves is
refused; an entry ends at its exact time (2 µs to Dusk, 300 µs to Night, 4 ms to Midnight) in the state asked for; a wake by pin, timer or host begins Dawn from Dusk, Night and Midnight, or waits for the entry's end (R380 to R383). -/
def Obligations.DeviceStatesMove : Prop :=
  ∀ (s : State) (who : Requester) (target : Nat),
    (s.m.serves who 0x00900008 = true → target < 4 →
      let m := s.m.wr .PWR_REQ_TARGET target
      (m.flag .PWR_STATE_MOVING = true → m.flag .SEC_PSW_BUSY = false → exec (.powerStateRequest who target) s = .next (s.onMach (fun _ => m.inc .GLOBAL_BADACC_COUNT))) ∧
      (m.flag .PWR_STATE_MOVING = false → m.rd .PWR_REQ_TARGET ≤ m.rd .PWR_STATE_CUR → exec (.powerStateRequest who target) s = .next (s.onMach (fun _ => m))) ∧
      (m.flag .PWR_STATE_MOVING = false → m.rd .PWR_STATE_CUR < m.rd .PWR_REQ_TARGET → ∀ c, m.refuser (m.rd .PWR_REQ_TARGET) = some c →
        exec (.powerStateRequest who target) s = .next (s.onMach (fun _ => ((((m.inc .PWR_REFUSE_COUNT 1 c.1).wr .PWR_LASTREF_CLASS c.1).wr .PWR_LASTREF_INST c.2).wr
          .PWR_LASTREF_TARGET (m.rd .PWR_REQ_TARGET)).wr .PWR_LASTREF_TICK m.tick48))) ∧
      (m.flag .PWR_STATE_MOVING = false → m.rd .PWR_STATE_CUR < m.rd .PWR_REQ_TARGET → m.refuser (m.rd .PWR_REQ_TARGET) = none → m.rd .PWR_REQ_TARGET < 2 →
        exec (.powerStateRequest who target) s = .next (s.onMach (fun _ => { m.wr .PWR_STATE_MOVING 1 with
          power := { m.power with target := m.rd .PWR_REQ_TARGET, acceptedAt := m.tick, entering := true, wakePend := false } })))) ∧
    (s.m.awake = true →
      let entryTime := if s.m.power.target = 1 then 20 else if s.m.power.target = 2 then 3000 else 40000
      (s.m.power.entering = false ∨ s.m.tick < s.m.power.acceptedAt + entryTime → exec .stateEntryDone s = .next s) ∧
      (s.m.power.entering = true → s.m.power.acceptedAt + entryTime ≤ s.m.tick →
        let k := ((s.m.enterState s.m.power.target).wr .PWR_STATE_CUR (s.m.enterState s.m.power.target).power.target).wr .PWR_STATE_MOVING 0
        let e : Mach := { k with power := { k.power with entering := false } }
        (k.power.wakePend = false → exec .stateEntryDone s = .next (s.onMach (fun _ => e))) ∧
        (k.power.wakePend = true → exec .stateEntryDone s = .next (s.onMach (fun _ => e.beginDawn)))) ∧
      (s.m.flag .PWR_WAKE_PIN = true → exec .wakePin s = .next (s.onMach Mach.wake)) ∧
      (s.m.flag .PWR_WAKE_PIN = false → exec .wakePin s = .next s) ∧
      (s.m.rd .PWR_WAKE_AT ≠ 0 → s.m.passed (s.m.rd .PWR_WAKE_AT) = true → exec .wakeTimer s = .next (s.onMach Mach.wake)) ∧
      (s.m.rd .PWR_WAKE_AT = 0 ∨ s.m.passed (s.m.rd .PWR_WAKE_AT) = false → exec .wakeTimer s = .next s) ∧
      (s.m.power.entering = true → exec .hostWakeRequest s = .next (s.onMach (fun m => { m with power := { m.power with wakePend := true } }))) ∧
      (s.m.power.entering = false → s.m.rd .PWR_STATE_CUR ≠ 0 → s.m.power.dawnAt = none → exec .hostWakeRequest s = .next (s.onMach Mach.beginDawn)) ∧
      (s.m.power.entering = false → s.m.rd .PWR_STATE_CUR = 0 → exec .hostWakeRequest s = .next s))

/-- Dawn: each of the first three stages that is ready starts the next, the third with the arrays at Day settings; the fourth ends them with the links in training and the time shown; a stage past its
time is recorded and all are tried once more, then the block halts and the change of state stops; Day is reported at the exit's exact time and not before, and the host's accesses that waited are served
in order (R379, R381, R383, R384). -/
def Obligations.DawnRunsItsStages : Prop :=
  ∀ (s : State) (tag : Verdict), s.m.awake = true →
    (∀ t, s.m.power.dawnAt = some t →
      let stage := s.m.rd .PWR_STATE_DAWNSTAGE
      let begins (m : Mach) : Mach := { m with power := { m.power with stageAt := m.tick } }
      let limit := stageLimit (s.m.rd .PWR_STATE_CUR) stage
      let exitTime := if s.m.rd .PWR_STATE_CUR = 1 then 200 else if s.m.rd .PWR_STATE_CUR = 2 then 15000 else 120000
      (stage = 1 ∨ stage = 2 → exec (.dawnStageReady tag) s = .next (s.onMach (fun m => begins (m.wr .PWR_STATE_DAWNSTAGE (stage + 1))))) ∧
      (stage = 3 → exec (.dawnStageReady tag) s = .next (s.onMach (fun m =>
        begins ((((m.wr .PWR_ASSIST_CSIS 0).wr .PWR_ASSIST_CACHE 0).wr .PWR_ASSIST_CTRL 0).wr .PWR_STATE_DAWNSTAGE 4)))) ∧
      (stage = 4 → s.m.rd .PWR_STATE_CUR ≠ 3 → exec (.dawnStageReady tag) s = .next (s.onMach (fun m =>
        (m.dawnLogic.wr .PWR_STATE_DAWNSTAGE 0).wr .PWR_EXIT_LASTUS ((m.tick - t) / 10)))) ∧
      (stage = 4 → s.m.rd .PWR_STATE_CUR = 3 → exec (.dawnStageReady .pass) s = .next (s.onMach (fun m =>
        ((m.dawnLogic.wr .PWR_STATE_DAWNSTAGE 0).wr .PWR_EXIT_LASTUS ((m.tick - t) / 10)).resumeCopy (m.power.acceptedAt * 100)))) ∧
      (stage = 0 → exec (.dawnStageReady tag) s = .next s) ∧
      (stage = 4 → s.m.rd .PWR_STATE_CUR = 3 → exec (.dawnStageReady .fail) s = .next (s.onMach (fun m => (m.post ⟨0, 0, 0, 9, 0, fkDawnStage⟩).warmAssert .save))) ∧
      (stage ≠ 0 → s.m.power.stageAt + limit ≤ s.m.tick → s.m.power.dawnFails = 0 → exec .dawnStageTimeout s = .next (s.onMach (fun m =>
        let k := (m.post ⟨0, 0, 0, 9, 0, fkDawnStage⟩).wr .PWR_STATE_DAWNSTAGE 1
        { k with power := { k.power with dawnFails := 1, stageAt := k.tick } }))) ∧
      (stage ≠ 0 → s.m.power.stageAt + limit ≤ s.m.tick → s.m.power.dawnFails ≠ 0 → exec .dawnStageTimeout s = .next (s.onMach (fun m => (m.haltWith 9 0 fkDawnStage).stopMove))) ∧
      (stage = 0 ∨ s.m.tick < s.m.power.stageAt + limit → exec .dawnStageTimeout s = .next s) ∧
      (stage = 0 → t + exitTime ≤ s.m.tick → exec .dayReached s = .next (s.onMach (fun m =>
        let k := (m.wr .PWR_STATE_CUR 0).wr .PWR_STATE_MOVING 0
        m.power.hostHeld.foldl (fun m i => hostRow s.nv i m) { k with power := { k.power with dawnAt := none, dawnFails := 0, hostHeld := [] } }))) ∧
      (stage ≠ 0 ∨ s.m.tick < t + exitTime → exec .dayReached s = .next s)) ∧
    (s.m.power.dawnAt = none →
      exec (.dawnStageReady .pass) s = .next s ∧ exec .dawnStageTimeout s = .next s ∧ exec .dayReached s = .next s)

/-- Conversions and the guard: a read of THERM_NOW converts its zone; a conversion ends once its 40 µs have passed, with its zones taken and its owner answered; a sample above the limit arms the guard, counted and recorded, with
every partition and command outside the envelope; 100 µs below RELEASE disarm it (R386, R387, R391). -/
def Obligations.ConversionsAndThePowerGuard : Prop :=
  ∀ (s : State) (who : Requester) (z watts : Nat) (r : List Int), z < 24 →
    (s.m.answers who = true → exec (.thermNowRead who z) s = .next (s.onMach (fun m => m.convert [z] (.now z who)))) ∧
    (s.m.resets.cold = false →
      ((∀ k ∈ s.m.power.convs, k.owner ≠ .sideband ∧ s.m.tick < k.start + 400) → exec (.conversionDone r) s = .next s) ∧
      (∀ at', s.m.power.convs = [⟨[z], .now z who, at'⟩] → at' + 400 ≤ s.m.tick → exec (.conversionDone r) s = .next (s.onMach (fun m =>
        let k := ({ m with power := { m.power with convs := [] } } : Mach).takeZone r z
        k.emit (.regRead (0x00A00100 + z * 8) 64 (k.rd .THERM_ZONE_TEMP z + k.rd .THERM_ZONE_VALID z * 2 ^ 16 + k.rd .THERM_ZONE_IGNORED z * 2 ^ 20 + k.rd .THERM_ZONE_TICK z * 2 ^ 32)))))) ∧
    (s.m.awake = true →
      (s.m.flag .PWR_GUARD_ACTIVE = false → max (s.m.rd .PWR_GUARD_LIMIT) (s.m.rd .PWR_GUARD_RELEASE) < watts → exec (.powerGuardSample watts) s = .next (s.onMach (fun m =>
        let k := ((m.wr .PWR_GUARD_ACTIVE 1).inc .PWR_GUARD_COUNT).post ⟨0, 0, 0, 9, 0, fkPguard⟩
        let k := (List.range 16).foldl (fun m p => m.setCauses p causePguard) k
        ({ k with power := { k.power with belowFrom := none } } : Mach).takeOutWhere causePguard (fun c => c.result.isNone)))) ∧
      (s.m.flag .PWR_GUARD_ACTIVE = false → watts ≤ max (s.m.rd .PWR_GUARD_LIMIT) (s.m.rd .PWR_GUARD_RELEASE) → exec (.powerGuardSample watts) s = .next s) ∧
      (s.m.flag .PWR_GUARD_ACTIVE = true → s.m.rd .PWR_GUARD_RELEASE ≤ watts →
        exec (.powerGuardSample watts) s = .next (s.onMach (fun m => { m with power := { m.power with belowFrom := none } }))) ∧
      (s.m.flag .PWR_GUARD_ACTIVE = true → watts < s.m.rd .PWR_GUARD_RELEASE →
        (s.m.power.belowFrom = none → exec (.powerGuardSample watts) s = .next (s.onMach (fun m => { m with power := { m.power with belowFrom := some m.time.ns } }))) ∧
        (∀ t, s.m.power.belowFrom = some t → s.m.time.ns < t + 100000 → exec (.powerGuardSample watts) s = .next s) ∧
        (∀ t, s.m.power.belowFrom = some t → t + 100000 ≤ s.m.time.ns →
          exec (.powerGuardSample watts) s = .next (s.onMach (fun m => { m.wr .PWR_GUARD_ACTIVE 0 with power := { m.power with belowFrom := none } })))))

/-- Trips: a die that trips shows it with THERMTRIP_N low, its domains stopped, and halts the block; a stack's DRAM trip fences that stack, and halts the block too while its state changes; a rail that fails and a PLL that loses lock halt the block,
but in Midnight (R389, R392, R393). -/
def Obligations.TripsHaltOrFence : Prop :=
  ∀ (s : State) (d n k : Nat), d < 2 → n < 12 → k < 6 →
    (s.m.resets.cold = false →
      exec (.dieTrip d) s = .next (s.onMach (fun m =>
        let m := (m.setB .THERM_TRIP_DIE d).emit (.pin pinThermtrip false)
        ((m.stopDoms ((List.range 96).map (96 * d + ·) ++ (List.range 24).map (192 + 24 * d + ·))).stopMove).haltWith 9 d fkTripDie)) ∧
      let fenced := ((s.m.setB .THERM_TRIP_DRAM n).emit (.pin pinThermtrip false)).fenceStack n 9 (2 + n) fkTripDram
      (s.m.flag .PWR_STATE_MOVING = false → exec (.dramTrip n) s = .next (s.onMach (fun _ => fenced))) ∧
      (s.m.flag .PWR_STATE_MOVING = true → exec (.dramTrip n) s = .next (s.onMach (fun _ => fenced.stopMove.reactHalt)))) ∧
    (s.m.awake = true →
      (s.m.rd .PWR_STATE_CUR ≠ 3 → exec (.railFail k) s = .next (s.onMach (fun m => m.haltWith 9 (if k = 1 then 1 else 0) fkRail)) ∧
        exec (.pllLockLoss d) s = .next (s.onMach (fun m => m.haltWith 9 d fkPll))) ∧
      (s.m.rd .PWR_STATE_CUR = 3 → exec (.railFail k) s = .next s ∧ exec (.pllLockLoss d) s = .next s))

/-! ## Resets (file 16) -/

/-- Cold reset: a core rail that Midnight holds off does not count, any other, an absent clock and a pulse on MRST_N of 10 µs or more assert it, with the block at its reset values but what no reset
reaches; a pulse below 2 µs does nothing; released, the enabled ports train and the rails are enabled; the start-up test reports its failures, one of the control cluster with Twilight (R398, R403, R405). -/
def Obligations.ColdResetAndStart : Prop :=
  ∀ (s : State) (r ns : Nat) (failed : List CheckerPart), r < 6 →
    let tripped := s.m.rd .THERM_TRIP_DIE != 0 || s.m.rd .THERM_TRIP_DRAM != 0
    let quiet (m : Mach) : Mach := if tripped = true then m.dropFar.emit (.pin pinThermtrip true) else m.dropFar
    let cold (m : Mach) (por mrst : Nat) : Mach := ((quiet m).cleared.wr .RST_CAUSE_POR por).wr .RST_CAUSE_MRST mrst
    (s.m.resets.cold = false →
      exec (.coldResetAssert .clockAbsent) s = .next (s.onMach (fun m => cold m 1 0)) ∧
      (10000 ≤ ns → exec (.coldResetAssert (.mrst ns)) s = .next (s.onMach (fun m => cold m 0 1))) ∧
      (r < 3 → s.m.rd .PWR_STATE_CUR ≠ 3 → exec (.coldResetAssert (.railLow r)) s = .next (s.onMach (fun m => cold m 1 0)))) ∧
    (s.m.resets.cold = true → exec (.coldResetAssert .clockAbsent) s = .next s ∧ (10000 ≤ ns → exec (.coldResetAssert (.mrst ns)) s = .next s)) ∧
    (r < 3 → s.m.rd .PWR_STATE_CUR = 3 → exec (.coldResetAssert (.railLow r)) s = .next s) ∧
    (ns < 2000 → exec (.coldResetAssert (.mrst ns)) s = .next s) ∧
    (s.m.resets.cold = true → exec .coldResetRelease s = .next (s.onMach (fun m =>
      ((({ m with resets := { m.resets with cold := false } } : Mach).trainPorts).throttleAgain).pwrEn true))) ∧
    (s.m.resets.cold = false → exec .coldResetRelease s = .next s) ∧
    (s.m.awake = true → s.m.hostUp = false → s.m.firmware = false → s.m.twilight = false → failed.all checkerOk = true →
      let m := startupTest failed s.m
      (m.resets.startFail = true → exec (.startupCheckerTest failed) s = .next (s.onMach (fun _ =>
        (((m.wr .RST_MODE_TWILIGHT 1).wr .SEC_BOOT_STATE 4).wr .SEC_PART_CTL_ENABLE 0 0).wr .SEC_PART_CTL_RESIDENT 0 0))) ∧
      (m.resets.startFail = false → exec (.startupCheckerTest failed) s = .next (s.onMach (fun _ => m)))) ∧
    (s.m.awake = true → s.m.hostUp = true → failed.all checkerOk = true → exec (.startupCheckerTest failed) s = .next s)

/-- Warm reset: a request reacts as a Halt, then asserts it, with its cause; it is released 20 µs on, never before, with the time base resumed from its copy; a start that is late by two seconds counts
a failure, to 3 at most, and resets (R28, R399, R404). How far the resumed time is off is free within R28's bound (log entry 28). -/
def Obligations.WarmResetAndLateStart : Prop :=
  ∀ (s : State) (who : Requester),
    (s.m.serves who 0x00B00000 = true → exec (.warmResetRequest who) s = .next (s.onMach (fun m => m.reactHalt.warmAssert .soft))) ∧
    (s.m.resets.warm = none → exec .warmResetRelease s = .next s) ∧
    (∀ t, s.m.resets.warm = some t → s.m.time.ns < t + 20000 → exec .warmResetRelease s = .next s) ∧
    (∀ t, s.m.resets.warm = some t → t + 20000 ≤ s.m.time.ns → (s.m.resumeCopy t).resets.lateDue = false → exec .warmResetRelease s = .next (s.onMach (fun m =>
      let k := m.resumeCopy t
      let k : Mach := { k with resets := { k.resets with warm := none, lateDue := false }, trust := { k.trust with releaseNs := k.time.ns } }
      (k.trainPorts.throttleAgain).startMode))) ∧
    (s.m.awake = true →
      (s.m.flag .SEC_BOOT_STARTED = true ∨ (s.m.time.ns : Int) < s.m.trust.releaseNs + 2000000000 → exec .startTimeout s = .next s) ∧
      (s.m.flag .SEC_BOOT_STARTED = false → s.m.rd .SEC_BOOT_STATE ≠ 4 → s.m.trust.releaseNs + 2000000000 ≤ (s.m.time.ns : Int) →
        exec .startTimeout s = .next (s.onMach (fun m => (m.wr .RST_START_FAILS (min 3 (m.rd .RST_START_FAILS + 1))).warmAssert .timeout))))

/-- Partition reset, unit reset and test mode: each selected partition takes the steps of R401, one that a switch involves once it is over; a unit that can be reset is recorded and resets, a link port by
training again, any other is refused and counted; it leaves reset at its event; test mode is entered with no partition sealed and no link key valid (R401, R402, R406). -/
def Obligations.PartitionsUnitsAndTestMode : Prop :=
  ∀ (s : State) (who : Requester) (mask cls inst p : Nat), p < 16 → cls < 16 → inst < 256 →
    (s.m.serves who 0x00B00020 = true →
      let m := s.m.wr .RST_PART_MASK mask
      (m.partResetBusy = true → exec (.partitionReset who mask) s = .next (s.onMach (fun _ => m.inc .GLOBAL_BADACC_COUNT))) ∧
      (m.partResetBusy = false → setBits 16 (m.rd .RST_PART_MASK) = [p] → m.inSwitch p = false → exec (.partitionReset who mask) s = .next (s.onMach (fun _ => m.resetPart p))) ∧
      (m.partResetBusy = false → setBits 16 (m.rd .RST_PART_MASK) = [p] → m.inSwitch p = true →
        exec (.partitionReset who mask) s = .next (s.onMach (fun _ => { m with resets := { m.resets with parts := m.resets.parts ++ [p] } })))) ∧
    (s.m.serves who 0x00B00028 = true →
      let m := (s.m.wr .RST_UNIT_CLASS cls).wr .RST_UNIT_INST inst
      let c := m.rd .RST_UNIT_CLASS
      let n := m.rd .RST_UNIT_INST
      let b := m.post ⟨0, 0, 0, c, n, fkUnitReset⟩
      let k : Mach := { b with resets := { b.resets with units := b.resets.units.filter (· != (c, n)) ++ [(c, n)] } }
      (unitOk c n = false → exec (.unitReset who cls inst) s = .next (s.onMach (fun _ => (m.wr .RST_UNIT_REFUSED 1).inc .GLOBAL_BADACC_COUNT))) ∧
      (unitOk c n = true → c = 0 → exec (.unitReset who cls inst) s = .next (s.onMach (fun _ => k.resetCore n))) ∧
      (unitOk c n = true → c = 1 → exec (.unitReset who cls inst) s = .next (s.onMach (fun _ => k.resetSequencer n))) ∧
      (unitOk c n = true → c = 4 → k.flag .LINK_CTL_ENABLE n = true → exec (.unitReset who cls inst) s = .next (s.onMach (fun _ => (k.dropQueue n).wr .LINK_STATE_STATE 1 n)))) ∧
    (s.m.awake = true → ∀ u rest, s.m.resets.units = u :: rest →
      (u.1 ≠ 4 ∨ s.m.portUp u.2 = true → exec .unitResetRelease s = .next (s.onMach (fun m => { m with resets := { m.resets with units := rest } }))) ∧
      (rest = [] → u.1 = 4 → s.m.portUp u.2 = false → exec .unitResetRelease s = .next s)) ∧
    (s.m.serves who 0x00B00018 = true →
      (s.m.lockdown = false → (∀ k < 256, s.m.flag .SEC_KEYST_VALID k = false) → exec (.testModeEnter who) s = .next (s.onMach (fun m => m.wr .RST_MODE_TEST 1))) ∧
      (∀ k < 256, s.m.lockdown = true ∨ s.m.flag .SEC_KEYST_VALID k = true → exec (.testModeEnter who) s = .next (s.onMach (fun m => m.inc .GLOBAL_BADACC_COUNT))))

/-! ## Rights of the host (R369) -/

/-- Rights of the host: a control-space write that it has no right to is counted and refused, and changes nothing but the counters and, once per millisecond, the record of it. It has no right to the
boot registers once firmware runs, to the security engine's own registers, to partitions, tenants and tables under lockdown, nor to a sealed partition's window but for its open registers (R369). -/
def Obligations.HostWritesAreLimited : Prop :=
  ∀ (s : State) (off width v p k : Nat), p < 16 → k < 0x10000 →
    (s.m.answers .host = true → width = 32 ∨ width = 64 → off % (width / 8) = 0 → off < 0x10000000 → s.m.hostMay off = false → exec (.registerWrite .host off width v) s = .next (s.onMach (fun m => (m.inc .GLOBAL_BADACC_COUNT).countDenied))) ∧
    (0x00C00000 ≤ off → off < 0x00C00018 → s.m.firmware = true → s.m.hostMay off = false) ∧
    (0x00C00018 ≤ off → off < 0x00C80000 → s.m.hostMay off = false) ∧
    (0x00C80000 ≤ off → off < 0x01000000 → s.m.lockdown = true → s.m.hostMay off = false) ∧
    (s.m.isSealed p = true → seqrOpen k = false → s.m.hostMay (0x00200000 + p * 0x10000 + k) = false) ∧
    (s.m.isSealed p = true → s.m.lockdown = true) ∧
    (0x00400000 ≤ off → off < 0x00800000 → s.m.hostMay off = true)
end

