-- ==== Sys2Proof/Laws/State.lean ====
section
/-! SUPPORT. What each update of the block leaves: one lemma for each field it does not touch, and what a read after a write gives. -/
namespace Sys2Proof.Machine

@[simp] theorem State.onMach_nv (s : State) (f : Mach → Mach) : (s.onMach f).nv = s.nv := rfl
@[simp] theorem State.onMach_m (s : State) (f : Mach → Mach) : (s.onMach f).m = f s.m := rfl
@[simp] theorem State.onMach_pending (s : State) (f : Mach → Mach) : (s.onMach f).pending = s.pending := rfl

/-! ## wr -/
@[simp] theorem Mach.wr_time (m : Mach) (f : Fld) (v i j : Nat) : (m.wr f v i j).time = m.time := rfl
@[simp] theorem Mach.wr_fresh (m : Mach) (f : Fld) (v i j : Nat) : (m.wr f v i j).fresh = m.fresh := rfl
@[simp] theorem Mach.wr_mem (m : Mach) (f : Fld) (v i j : Nat) : (m.wr f v i j).mem = m.mem := rfl
@[simp] theorem Mach.wr_written (m : Mach) (f : Fld) (v i j : Nat) : (m.wr f v i j).written = m.written := rfl
@[simp] theorem Mach.wr_wrong (m : Mach) (f : Fld) (v i j : Nat) : (m.wr f v i j).wrong = m.wrong := rfl
@[simp] theorem Mach.wr_wmWrong (m : Mach) (f : Fld) (v i j : Nat) : (m.wr f v i j).wmWrong = m.wmWrong := rfl
@[simp] theorem Mach.wr_cache (m : Mach) (f : Fld) (v i j : Nat) : (m.wr f v i j).cache = m.cache := rfl
@[simp] theorem Mach.wr_istore (m : Mach) (f : Fld) (v i j : Nat) : (m.wr f v i j).istore = m.istore := rfl
@[simp] theorem Mach.wr_istoreWrong (m : Mach) (f : Fld) (v i j : Nat) : (m.wr f v i j).istoreWrong = m.istoreWrong := rfl
@[simp] theorem Mach.wr_sessWrong (m : Mach) (f : Fld) (v i j : Nat) : (m.wr f v i j).sessWrong = m.sessWrong := rfl
@[simp] theorem Mach.wr_hostMem (m : Mach) (f : Fld) (v i j : Nat) : (m.wr f v i j).hostMem = m.hostMem := rfl
@[simp] theorem Mach.wr_seqtab (m : Mach) (f : Fld) (v i j : Nat) : (m.wr f v i j).seqtab = m.seqtab := rfl
@[simp] theorem Mach.wr_sq (m : Mach) (f : Fld) (v i j : Nat) : (m.wr f v i j).sq = m.sq := rfl
@[simp] theorem Mach.wr_mons (m : Mach) (f : Fld) (v i j : Nat) : (m.wr f v i j).mons = m.mons := rfl
@[simp] theorem Mach.wr_traceStage (m : Mach) (f : Fld) (v i j : Nat) : (m.wr f v i j).traceStage = m.traceStage := rfl
@[simp] theorem Mach.wr_descs (m : Mach) (f : Fld) (v i j : Nat) : (m.wr f v i j).descs = m.descs := rfl
@[simp] theorem Mach.wr_creating (m : Mach) (f : Fld) (v i j : Nat) : (m.wr f v i j).creating = m.creating := rfl
@[simp] theorem Mach.wr_allocPend (m : Mach) (f : Fld) (v i j : Nat) : (m.wr f v i j).allocPend = m.allocPend := rfl
@[simp] theorem Mach.wr_forgets (m : Mach) (f : Fld) (v i j : Nat) : (m.wr f v i j).forgets = m.forgets := rfl
@[simp] theorem Mach.wr_adds (m : Mach) (f : Fld) (v i j : Nat) : (m.wr f v i j).adds = m.adds := rfl
@[simp] theorem Mach.wr_poolHead (m : Mach) (f : Fld) (v i j : Nat) : (m.wr f v i j).poolHead = m.poolHead := rfl
@[simp] theorem Mach.wr_stackTab (m : Mach) (f : Fld) (v i j : Nat) : (m.wr f v i j).stackTab = m.stackTab := rfl
@[simp] theorem Mach.wr_banks (m : Mach) (f : Fld) (v i j : Nat) : (m.wr f v i j).banks = m.banks := rfl
@[simp] theorem Mach.wr_items (m : Mach) (f : Fld) (v i j : Nat) : (m.wr f v i j).items = m.items := rfl
@[simp] theorem Mach.wr_nextItem (m : Mach) (f : Fld) (v i j : Nat) : (m.wr f v i j).nextItem = m.nextItem := rfl
@[simp] theorem Mach.wr_rowCopy (m : Mach) (f : Fld) (v i j : Nat) : (m.wr f v i j).rowCopy = m.rowCopy := rfl
@[simp] theorem Mach.wr_coreMap (m : Mach) (f : Fld) (v i j : Nat) : (m.wr f v i j).coreMap = m.coreMap := rfl
@[simp] theorem Mach.wr_cores (m : Mach) (f : Fld) (v i j : Nat) : (m.wr f v i j).cores = m.cores := rfl
@[simp] theorem Mach.wr_groupStops (m : Mach) (f : Fld) (v i j : Nat) : (m.wr f v i j).groupStops = m.groupStops := rfl
@[simp] theorem Mach.wr_saved (m : Mach) (f : Fld) (v i j : Nat) : (m.wr f v i j).saved = m.saved := rfl
@[simp] theorem Mach.wr_doms (m : Mach) (f : Fld) (v i j : Nat) : (m.wr f v i j).doms = m.doms := rfl
@[simp] theorem Mach.wr_farOps (m : Mach) (f : Fld) (v i j : Nat) : (m.wr f v i j).farOps = m.farOps := rfl
@[simp] theorem Mach.wr_farData (m : Mach) (f : Fld) (v i j : Nat) : (m.wr f v i j).farData = m.farData := rfl
@[simp] theorem Mach.wr_farLost (m : Mach) (f : Fld) (v i j : Nat) : (m.wr f v i j).farLost = m.farLost := rfl
@[simp] theorem Mach.wr_txq (m : Mach) (f : Fld) (v i j : Nat) : (m.wr f v i j).txq = m.txq := rfl
@[simp] theorem Mach.wr_transfers (m : Mach) (f : Fld) (v i j : Nat) : (m.wr f v i j).transfers = m.transfers := rfl
@[simp] theorem Mach.wr_frags (m : Mach) (f : Fld) (v i j : Nat) : (m.wr f v i j).frags = m.frags := rfl
@[simp] theorem Mach.wr_rxcnt (m : Mach) (f : Fld) (v i j : Nat) : (m.wr f v i j).rxcnt = m.rxcnt := rfl
@[simp] theorem Mach.wr_fecHeard (m : Mach) (f : Fld) (v i j : Nat) : (m.wr f v i j).fecHeard = m.fecHeard := rfl
@[simp] theorem Mach.wr_requests (m : Mach) (f : Fld) (v i j : Nat) : (m.wr f v i j).requests = m.requests := rfl
@[simp] theorem Mach.wr_nextRid (m : Mach) (f : Fld) (v i j : Nat) : (m.wr f v i j).nextRid = m.nextRid := rfl
@[simp] theorem Mach.wr_fcnt (m : Mach) (f : Fld) (v i j : Nat) : (m.wr f v i j).fcnt = m.fcnt := rfl
@[simp] theorem Mach.wr_pair (m : Mach) (f : Fld) (v i j : Nat) : (m.wr f v i j).pair = m.pair := rfl
@[simp] theorem Mach.wr_elog (m : Mach) (f : Fld) (v i j : Nat) : (m.wr f v i j).elog = m.elog := rfl
@[simp] theorem Mach.wr_keys (m : Mach) (f : Fld) (v i j : Nat) : (m.wr f v i j).keys = m.keys := rfl
@[simp] theorem Mach.wr_routeNoted (m : Mach) (f : Fld) (v i j : Nat) : (m.wr f v i j).routeNoted = m.routeNoted := rfl
@[simp] theorem Mach.wr_unplugged (m : Mach) (f : Fld) (v i j : Nat) : (m.wr f v i j).unplugged = m.unplugged := rfl
@[simp] theorem Mach.wr_fecTimes (m : Mach) (f : Fld) (v i j : Nat) : (m.wr f v i j).fecTimes = m.fecTimes := rfl
@[simp] theorem Mach.wr_hdmError (m : Mach) (f : Fld) (v i j : Nat) : (m.wr f v i j).hdmError = m.hdmError := rfl
@[simp] theorem Mach.wr_accessed (m : Mach) (f : Fld) (v i j : Nat) : (m.wr f v i j).accessed = m.accessed := rfl
@[simp] theorem Mach.wr_ucieSlow (m : Mach) (f : Fld) (v i j : Nat) : (m.wr f v i j).ucieSlow = m.ucieSlow := rfl
@[simp] theorem Mach.wr_switch (m : Mach) (f : Fld) (v i j : Nat) : (m.wr f v i j).switch = m.switch := rfl
@[simp] theorem Mach.wr_selfCheck (m : Mach) (f : Fld) (v i j : Nat) : (m.wr f v i j).selfCheck = m.selfCheck := rfl
@[simp] theorem Mach.wr_power (m : Mach) (f : Fld) (v i j : Nat) : (m.wr f v i j).power = m.power := rfl
@[simp] theorem Mach.wr_trust (m : Mach) (f : Fld) (v i j : Nat) : (m.wr f v i j).trust = m.trust := rfl
@[simp] theorem Mach.wr_resets (m : Mach) (f : Fld) (v i j : Nat) : (m.wr f v i j).resets = m.resets := rfl
@[simp] theorem Mach.wr_out (m : Mach) (f : Fld) (v i j : Nat) : (m.wr f v i j).out = m.out := rfl
@[simp] theorem Mach.core_wr (m : Mach) (f : Fld) (v i j : Nat) (k : Nat) : (m.wr f v i j).core k = m.core k := rfl
@[simp] theorem Mach.map_wr (m : Mach) (f : Fld) (v i j : Nat) (k : Nat) : (m.wr f v i j).map k = m.map k := rfl
@[simp] theorem Mach.stack_wr (m : Mach) (f : Fld) (v i j : Nat) (k : Nat) : (m.wr f v i j).stack k = m.stack k := rfl
@[simp] theorem Mach.bank_wr (m : Mach) (f : Fld) (v i j : Nat) (a k : Nat) : (m.wr f v i j).bank a k = m.bank a k := rfl
@[simp] theorem Mach.mon_wr (m : Mach) (f : Fld) (v i j : Nat) (k : Nat) : (m.wr f v i j).mon k = m.mon k := rfl
@[simp] theorem Mach.sess_wr (m : Mach) (f : Fld) (v i j : Nat) (k : Nat) : (m.wr f v i j).sess k = m.sess k := rfl
@[simp] theorem Mach.desc_wr (m : Mach) (f : Fld) (v i j : Nat) (a k : Nat) : (m.wr f v i j).desc a k = m.desc a k := rfl
@[simp] theorem Mach.dom_wr (m : Mach) (f : Fld) (v i j : Nat) (k : Nat) : (m.wr f v i j).dom k = m.dom k := rfl

/-! ## emit -/
@[simp] theorem Mach.emit_regs (m : Mach) (o : Out) : (m.emit o).regs = m.regs := rfl
@[simp] theorem Mach.emit_time (m : Mach) (o : Out) : (m.emit o).time = m.time := rfl
@[simp] theorem Mach.emit_fresh (m : Mach) (o : Out) : (m.emit o).fresh = m.fresh := rfl
@[simp] theorem Mach.emit_mem (m : Mach) (o : Out) : (m.emit o).mem = m.mem := rfl
@[simp] theorem Mach.emit_written (m : Mach) (o : Out) : (m.emit o).written = m.written := rfl
@[simp] theorem Mach.emit_wrong (m : Mach) (o : Out) : (m.emit o).wrong = m.wrong := rfl
@[simp] theorem Mach.emit_wmWrong (m : Mach) (o : Out) : (m.emit o).wmWrong = m.wmWrong := rfl
@[simp] theorem Mach.emit_cache (m : Mach) (o : Out) : (m.emit o).cache = m.cache := rfl
@[simp] theorem Mach.emit_istore (m : Mach) (o : Out) : (m.emit o).istore = m.istore := rfl
@[simp] theorem Mach.emit_istoreWrong (m : Mach) (o : Out) : (m.emit o).istoreWrong = m.istoreWrong := rfl
@[simp] theorem Mach.emit_sessWrong (m : Mach) (o : Out) : (m.emit o).sessWrong = m.sessWrong := rfl
@[simp] theorem Mach.emit_hostMem (m : Mach) (o : Out) : (m.emit o).hostMem = m.hostMem := rfl
@[simp] theorem Mach.emit_seqtab (m : Mach) (o : Out) : (m.emit o).seqtab = m.seqtab := rfl
@[simp] theorem Mach.emit_sq (m : Mach) (o : Out) : (m.emit o).sq = m.sq := rfl
@[simp] theorem Mach.emit_mons (m : Mach) (o : Out) : (m.emit o).mons = m.mons := rfl
@[simp] theorem Mach.emit_traceStage (m : Mach) (o : Out) : (m.emit o).traceStage = m.traceStage := rfl
@[simp] theorem Mach.emit_descs (m : Mach) (o : Out) : (m.emit o).descs = m.descs := rfl
@[simp] theorem Mach.emit_creating (m : Mach) (o : Out) : (m.emit o).creating = m.creating := rfl
@[simp] theorem Mach.emit_allocPend (m : Mach) (o : Out) : (m.emit o).allocPend = m.allocPend := rfl
@[simp] theorem Mach.emit_forgets (m : Mach) (o : Out) : (m.emit o).forgets = m.forgets := rfl
@[simp] theorem Mach.emit_adds (m : Mach) (o : Out) : (m.emit o).adds = m.adds := rfl
@[simp] theorem Mach.emit_poolHead (m : Mach) (o : Out) : (m.emit o).poolHead = m.poolHead := rfl
@[simp] theorem Mach.emit_stackTab (m : Mach) (o : Out) : (m.emit o).stackTab = m.stackTab := rfl
@[simp] theorem Mach.emit_banks (m : Mach) (o : Out) : (m.emit o).banks = m.banks := rfl
@[simp] theorem Mach.emit_items (m : Mach) (o : Out) : (m.emit o).items = m.items := rfl
@[simp] theorem Mach.emit_nextItem (m : Mach) (o : Out) : (m.emit o).nextItem = m.nextItem := rfl
@[simp] theorem Mach.emit_rowCopy (m : Mach) (o : Out) : (m.emit o).rowCopy = m.rowCopy := rfl
@[simp] theorem Mach.emit_coreMap (m : Mach) (o : Out) : (m.emit o).coreMap = m.coreMap := rfl
@[simp] theorem Mach.emit_cores (m : Mach) (o : Out) : (m.emit o).cores = m.cores := rfl
@[simp] theorem Mach.emit_groupStops (m : Mach) (o : Out) : (m.emit o).groupStops = m.groupStops := rfl
@[simp] theorem Mach.emit_saved (m : Mach) (o : Out) : (m.emit o).saved = m.saved := rfl
@[simp] theorem Mach.emit_doms (m : Mach) (o : Out) : (m.emit o).doms = m.doms := rfl
@[simp] theorem Mach.emit_farOps (m : Mach) (o : Out) : (m.emit o).farOps = m.farOps := rfl
@[simp] theorem Mach.emit_farData (m : Mach) (o : Out) : (m.emit o).farData = m.farData := rfl
@[simp] theorem Mach.emit_farLost (m : Mach) (o : Out) : (m.emit o).farLost = m.farLost := rfl
@[simp] theorem Mach.emit_txq (m : Mach) (o : Out) : (m.emit o).txq = m.txq := rfl
@[simp] theorem Mach.emit_transfers (m : Mach) (o : Out) : (m.emit o).transfers = m.transfers := rfl
@[simp] theorem Mach.emit_frags (m : Mach) (o : Out) : (m.emit o).frags = m.frags := rfl
@[simp] theorem Mach.emit_rxcnt (m : Mach) (o : Out) : (m.emit o).rxcnt = m.rxcnt := rfl
@[simp] theorem Mach.emit_fecHeard (m : Mach) (o : Out) : (m.emit o).fecHeard = m.fecHeard := rfl
@[simp] theorem Mach.emit_requests (m : Mach) (o : Out) : (m.emit o).requests = m.requests := rfl
@[simp] theorem Mach.emit_nextRid (m : Mach) (o : Out) : (m.emit o).nextRid = m.nextRid := rfl
@[simp] theorem Mach.emit_fcnt (m : Mach) (o : Out) : (m.emit o).fcnt = m.fcnt := rfl
@[simp] theorem Mach.emit_pair (m : Mach) (o : Out) : (m.emit o).pair = m.pair := rfl
@[simp] theorem Mach.emit_elog (m : Mach) (o : Out) : (m.emit o).elog = m.elog := rfl
@[simp] theorem Mach.emit_keys (m : Mach) (o : Out) : (m.emit o).keys = m.keys := rfl
@[simp] theorem Mach.emit_routeNoted (m : Mach) (o : Out) : (m.emit o).routeNoted = m.routeNoted := rfl
@[simp] theorem Mach.emit_unplugged (m : Mach) (o : Out) : (m.emit o).unplugged = m.unplugged := rfl
@[simp] theorem Mach.emit_fecTimes (m : Mach) (o : Out) : (m.emit o).fecTimes = m.fecTimes := rfl
@[simp] theorem Mach.emit_hdmError (m : Mach) (o : Out) : (m.emit o).hdmError = m.hdmError := rfl
@[simp] theorem Mach.emit_accessed (m : Mach) (o : Out) : (m.emit o).accessed = m.accessed := rfl
@[simp] theorem Mach.emit_ucieSlow (m : Mach) (o : Out) : (m.emit o).ucieSlow = m.ucieSlow := rfl
@[simp] theorem Mach.emit_switch (m : Mach) (o : Out) : (m.emit o).switch = m.switch := rfl
@[simp] theorem Mach.emit_selfCheck (m : Mach) (o : Out) : (m.emit o).selfCheck = m.selfCheck := rfl
@[simp] theorem Mach.emit_power (m : Mach) (o : Out) : (m.emit o).power = m.power := rfl
@[simp] theorem Mach.emit_trust (m : Mach) (o : Out) : (m.emit o).trust = m.trust := rfl
@[simp] theorem Mach.emit_resets (m : Mach) (o : Out) : (m.emit o).resets = m.resets := rfl
@[simp] theorem Mach.core_emit (m : Mach) (o : Out) (k : Nat) : (m.emit o).core k = m.core k := rfl
@[simp] theorem Mach.map_emit (m : Mach) (o : Out) (k : Nat) : (m.emit o).map k = m.map k := rfl
@[simp] theorem Mach.stack_emit (m : Mach) (o : Out) (k : Nat) : (m.emit o).stack k = m.stack k := rfl
@[simp] theorem Mach.bank_emit (m : Mach) (o : Out) (a k : Nat) : (m.emit o).bank a k = m.bank a k := rfl
@[simp] theorem Mach.mon_emit (m : Mach) (o : Out) (k : Nat) : (m.emit o).mon k = m.mon k := rfl
@[simp] theorem Mach.sess_emit (m : Mach) (o : Out) (k : Nat) : (m.emit o).sess k = m.sess k := rfl
@[simp] theorem Mach.desc_emit (m : Mach) (o : Out) (a k : Nat) : (m.emit o).desc a k = m.desc a k := rfl
@[simp] theorem Mach.dom_emit (m : Mach) (o : Out) (k : Nat) : (m.emit o).dom k = m.dom k := rfl

/-! ## setCore -/
@[simp] theorem Mach.setCore_regs (m : Mach) (n : Nat) (c : Core) : (m.setCore n c).regs = m.regs := rfl
@[simp] theorem Mach.setCore_time (m : Mach) (n : Nat) (c : Core) : (m.setCore n c).time = m.time := rfl
@[simp] theorem Mach.setCore_fresh (m : Mach) (n : Nat) (c : Core) : (m.setCore n c).fresh = m.fresh := rfl
@[simp] theorem Mach.setCore_mem (m : Mach) (n : Nat) (c : Core) : (m.setCore n c).mem = m.mem := rfl
@[simp] theorem Mach.setCore_written (m : Mach) (n : Nat) (c : Core) : (m.setCore n c).written = m.written := rfl
@[simp] theorem Mach.setCore_wrong (m : Mach) (n : Nat) (c : Core) : (m.setCore n c).wrong = m.wrong := rfl
@[simp] theorem Mach.setCore_wmWrong (m : Mach) (n : Nat) (c : Core) : (m.setCore n c).wmWrong = m.wmWrong := rfl
@[simp] theorem Mach.setCore_cache (m : Mach) (n : Nat) (c : Core) : (m.setCore n c).cache = m.cache := rfl
@[simp] theorem Mach.setCore_istore (m : Mach) (n : Nat) (c : Core) : (m.setCore n c).istore = m.istore := rfl
@[simp] theorem Mach.setCore_istoreWrong (m : Mach) (n : Nat) (c : Core) : (m.setCore n c).istoreWrong = m.istoreWrong := rfl
@[simp] theorem Mach.setCore_sessWrong (m : Mach) (n : Nat) (c : Core) : (m.setCore n c).sessWrong = m.sessWrong := rfl
@[simp] theorem Mach.setCore_hostMem (m : Mach) (n : Nat) (c : Core) : (m.setCore n c).hostMem = m.hostMem := rfl
@[simp] theorem Mach.setCore_seqtab (m : Mach) (n : Nat) (c : Core) : (m.setCore n c).seqtab = m.seqtab := rfl
@[simp] theorem Mach.setCore_sq (m : Mach) (n : Nat) (c : Core) : (m.setCore n c).sq = m.sq := rfl
@[simp] theorem Mach.setCore_mons (m : Mach) (n : Nat) (c : Core) : (m.setCore n c).mons = m.mons := rfl
@[simp] theorem Mach.setCore_traceStage (m : Mach) (n : Nat) (c : Core) : (m.setCore n c).traceStage = m.traceStage := rfl
@[simp] theorem Mach.setCore_descs (m : Mach) (n : Nat) (c : Core) : (m.setCore n c).descs = m.descs := rfl
@[simp] theorem Mach.setCore_creating (m : Mach) (n : Nat) (c : Core) : (m.setCore n c).creating = m.creating := rfl
@[simp] theorem Mach.setCore_allocPend (m : Mach) (n : Nat) (c : Core) : (m.setCore n c).allocPend = m.allocPend := rfl
@[simp] theorem Mach.setCore_forgets (m : Mach) (n : Nat) (c : Core) : (m.setCore n c).forgets = m.forgets := rfl
@[simp] theorem Mach.setCore_adds (m : Mach) (n : Nat) (c : Core) : (m.setCore n c).adds = m.adds := rfl
@[simp] theorem Mach.setCore_poolHead (m : Mach) (n : Nat) (c : Core) : (m.setCore n c).poolHead = m.poolHead := rfl
@[simp] theorem Mach.setCore_stackTab (m : Mach) (n : Nat) (c : Core) : (m.setCore n c).stackTab = m.stackTab := rfl
@[simp] theorem Mach.setCore_banks (m : Mach) (n : Nat) (c : Core) : (m.setCore n c).banks = m.banks := rfl
@[simp] theorem Mach.setCore_items (m : Mach) (n : Nat) (c : Core) : (m.setCore n c).items = m.items := rfl
@[simp] theorem Mach.setCore_nextItem (m : Mach) (n : Nat) (c : Core) : (m.setCore n c).nextItem = m.nextItem := rfl
@[simp] theorem Mach.setCore_rowCopy (m : Mach) (n : Nat) (c : Core) : (m.setCore n c).rowCopy = m.rowCopy := rfl
@[simp] theorem Mach.setCore_coreMap (m : Mach) (n : Nat) (c : Core) : (m.setCore n c).coreMap = m.coreMap := rfl
@[simp] theorem Mach.setCore_groupStops (m : Mach) (n : Nat) (c : Core) : (m.setCore n c).groupStops = m.groupStops := rfl
@[simp] theorem Mach.setCore_saved (m : Mach) (n : Nat) (c : Core) : (m.setCore n c).saved = m.saved := rfl
@[simp] theorem Mach.setCore_doms (m : Mach) (n : Nat) (c : Core) : (m.setCore n c).doms = m.doms := rfl
@[simp] theorem Mach.setCore_farOps (m : Mach) (n : Nat) (c : Core) : (m.setCore n c).farOps = m.farOps := rfl
@[simp] theorem Mach.setCore_farData (m : Mach) (n : Nat) (c : Core) : (m.setCore n c).farData = m.farData := rfl
@[simp] theorem Mach.setCore_farLost (m : Mach) (n : Nat) (c : Core) : (m.setCore n c).farLost = m.farLost := rfl
@[simp] theorem Mach.setCore_txq (m : Mach) (n : Nat) (c : Core) : (m.setCore n c).txq = m.txq := rfl
@[simp] theorem Mach.setCore_transfers (m : Mach) (n : Nat) (c : Core) : (m.setCore n c).transfers = m.transfers := rfl
@[simp] theorem Mach.setCore_frags (m : Mach) (n : Nat) (c : Core) : (m.setCore n c).frags = m.frags := rfl
@[simp] theorem Mach.setCore_rxcnt (m : Mach) (n : Nat) (c : Core) : (m.setCore n c).rxcnt = m.rxcnt := rfl
@[simp] theorem Mach.setCore_fecHeard (m : Mach) (n : Nat) (c : Core) : (m.setCore n c).fecHeard = m.fecHeard := rfl
@[simp] theorem Mach.setCore_requests (m : Mach) (n : Nat) (c : Core) : (m.setCore n c).requests = m.requests := rfl
@[simp] theorem Mach.setCore_nextRid (m : Mach) (n : Nat) (c : Core) : (m.setCore n c).nextRid = m.nextRid := rfl
@[simp] theorem Mach.setCore_fcnt (m : Mach) (n : Nat) (c : Core) : (m.setCore n c).fcnt = m.fcnt := rfl
@[simp] theorem Mach.setCore_pair (m : Mach) (n : Nat) (c : Core) : (m.setCore n c).pair = m.pair := rfl
@[simp] theorem Mach.setCore_elog (m : Mach) (n : Nat) (c : Core) : (m.setCore n c).elog = m.elog := rfl
@[simp] theorem Mach.setCore_keys (m : Mach) (n : Nat) (c : Core) : (m.setCore n c).keys = m.keys := rfl
@[simp] theorem Mach.setCore_routeNoted (m : Mach) (n : Nat) (c : Core) : (m.setCore n c).routeNoted = m.routeNoted := rfl
@[simp] theorem Mach.setCore_unplugged (m : Mach) (n : Nat) (c : Core) : (m.setCore n c).unplugged = m.unplugged := rfl
@[simp] theorem Mach.setCore_fecTimes (m : Mach) (n : Nat) (c : Core) : (m.setCore n c).fecTimes = m.fecTimes := rfl
@[simp] theorem Mach.setCore_hdmError (m : Mach) (n : Nat) (c : Core) : (m.setCore n c).hdmError = m.hdmError := rfl
@[simp] theorem Mach.setCore_accessed (m : Mach) (n : Nat) (c : Core) : (m.setCore n c).accessed = m.accessed := rfl
@[simp] theorem Mach.setCore_ucieSlow (m : Mach) (n : Nat) (c : Core) : (m.setCore n c).ucieSlow = m.ucieSlow := rfl
@[simp] theorem Mach.setCore_switch (m : Mach) (n : Nat) (c : Core) : (m.setCore n c).switch = m.switch := rfl
@[simp] theorem Mach.setCore_selfCheck (m : Mach) (n : Nat) (c : Core) : (m.setCore n c).selfCheck = m.selfCheck := rfl
@[simp] theorem Mach.setCore_power (m : Mach) (n : Nat) (c : Core) : (m.setCore n c).power = m.power := rfl
@[simp] theorem Mach.setCore_trust (m : Mach) (n : Nat) (c : Core) : (m.setCore n c).trust = m.trust := rfl
@[simp] theorem Mach.setCore_resets (m : Mach) (n : Nat) (c : Core) : (m.setCore n c).resets = m.resets := rfl
@[simp] theorem Mach.setCore_out (m : Mach) (n : Nat) (c : Core) : (m.setCore n c).out = m.out := rfl
@[simp] theorem Mach.map_setCore (m : Mach) (n : Nat) (c : Core) (k : Nat) : (m.setCore n c).map k = m.map k := rfl
@[simp] theorem Mach.stack_setCore (m : Mach) (n : Nat) (c : Core) (k : Nat) : (m.setCore n c).stack k = m.stack k := rfl
@[simp] theorem Mach.bank_setCore (m : Mach) (n : Nat) (c : Core) (a k : Nat) : (m.setCore n c).bank a k = m.bank a k := rfl
@[simp] theorem Mach.mon_setCore (m : Mach) (n : Nat) (c : Core) (k : Nat) : (m.setCore n c).mon k = m.mon k := rfl
@[simp] theorem Mach.sess_setCore (m : Mach) (n : Nat) (c : Core) (k : Nat) : (m.setCore n c).sess k = m.sess k := rfl
@[simp] theorem Mach.desc_setCore (m : Mach) (n : Nat) (c : Core) (a k : Nat) : (m.setCore n c).desc a k = m.desc a k := rfl
@[simp] theorem Mach.dom_setCore (m : Mach) (n : Nat) (c : Core) (k : Nat) : (m.setCore n c).dom k = m.dom k := rfl

/-! ## setStack -/
@[simp] theorem Mach.setStack_regs (m : Mach) (n : Nat) (v : Stack) : (m.setStack n v).regs = m.regs := rfl
@[simp] theorem Mach.setStack_time (m : Mach) (n : Nat) (v : Stack) : (m.setStack n v).time = m.time := rfl
@[simp] theorem Mach.setStack_fresh (m : Mach) (n : Nat) (v : Stack) : (m.setStack n v).fresh = m.fresh := rfl
@[simp] theorem Mach.setStack_mem (m : Mach) (n : Nat) (v : Stack) : (m.setStack n v).mem = m.mem := rfl
@[simp] theorem Mach.setStack_written (m : Mach) (n : Nat) (v : Stack) : (m.setStack n v).written = m.written := rfl
@[simp] theorem Mach.setStack_wrong (m : Mach) (n : Nat) (v : Stack) : (m.setStack n v).wrong = m.wrong := rfl
@[simp] theorem Mach.setStack_wmWrong (m : Mach) (n : Nat) (v : Stack) : (m.setStack n v).wmWrong = m.wmWrong := rfl
@[simp] theorem Mach.setStack_cache (m : Mach) (n : Nat) (v : Stack) : (m.setStack n v).cache = m.cache := rfl
@[simp] theorem Mach.setStack_istore (m : Mach) (n : Nat) (v : Stack) : (m.setStack n v).istore = m.istore := rfl
@[simp] theorem Mach.setStack_istoreWrong (m : Mach) (n : Nat) (v : Stack) : (m.setStack n v).istoreWrong = m.istoreWrong := rfl
@[simp] theorem Mach.setStack_sessWrong (m : Mach) (n : Nat) (v : Stack) : (m.setStack n v).sessWrong = m.sessWrong := rfl
@[simp] theorem Mach.setStack_hostMem (m : Mach) (n : Nat) (v : Stack) : (m.setStack n v).hostMem = m.hostMem := rfl
@[simp] theorem Mach.setStack_seqtab (m : Mach) (n : Nat) (v : Stack) : (m.setStack n v).seqtab = m.seqtab := rfl
@[simp] theorem Mach.setStack_sq (m : Mach) (n : Nat) (v : Stack) : (m.setStack n v).sq = m.sq := rfl
@[simp] theorem Mach.setStack_mons (m : Mach) (n : Nat) (v : Stack) : (m.setStack n v).mons = m.mons := rfl
@[simp] theorem Mach.setStack_traceStage (m : Mach) (n : Nat) (v : Stack) : (m.setStack n v).traceStage = m.traceStage := rfl
@[simp] theorem Mach.setStack_descs (m : Mach) (n : Nat) (v : Stack) : (m.setStack n v).descs = m.descs := rfl
@[simp] theorem Mach.setStack_creating (m : Mach) (n : Nat) (v : Stack) : (m.setStack n v).creating = m.creating := rfl
@[simp] theorem Mach.setStack_allocPend (m : Mach) (n : Nat) (v : Stack) : (m.setStack n v).allocPend = m.allocPend := rfl
@[simp] theorem Mach.setStack_forgets (m : Mach) (n : Nat) (v : Stack) : (m.setStack n v).forgets = m.forgets := rfl
@[simp] theorem Mach.setStack_adds (m : Mach) (n : Nat) (v : Stack) : (m.setStack n v).adds = m.adds := rfl
@[simp] theorem Mach.setStack_poolHead (m : Mach) (n : Nat) (v : Stack) : (m.setStack n v).poolHead = m.poolHead := rfl
@[simp] theorem Mach.setStack_banks (m : Mach) (n : Nat) (v : Stack) : (m.setStack n v).banks = m.banks := rfl
@[simp] theorem Mach.setStack_items (m : Mach) (n : Nat) (v : Stack) : (m.setStack n v).items = m.items := rfl
@[simp] theorem Mach.setStack_nextItem (m : Mach) (n : Nat) (v : Stack) : (m.setStack n v).nextItem = m.nextItem := rfl
@[simp] theorem Mach.setStack_rowCopy (m : Mach) (n : Nat) (v : Stack) : (m.setStack n v).rowCopy = m.rowCopy := rfl
@[simp] theorem Mach.setStack_coreMap (m : Mach) (n : Nat) (v : Stack) : (m.setStack n v).coreMap = m.coreMap := rfl
@[simp] theorem Mach.setStack_cores (m : Mach) (n : Nat) (v : Stack) : (m.setStack n v).cores = m.cores := rfl
@[simp] theorem Mach.setStack_groupStops (m : Mach) (n : Nat) (v : Stack) : (m.setStack n v).groupStops = m.groupStops := rfl
@[simp] theorem Mach.setStack_saved (m : Mach) (n : Nat) (v : Stack) : (m.setStack n v).saved = m.saved := rfl
@[simp] theorem Mach.setStack_doms (m : Mach) (n : Nat) (v : Stack) : (m.setStack n v).doms = m.doms := rfl
@[simp] theorem Mach.setStack_farOps (m : Mach) (n : Nat) (v : Stack) : (m.setStack n v).farOps = m.farOps := rfl
@[simp] theorem Mach.setStack_farData (m : Mach) (n : Nat) (v : Stack) : (m.setStack n v).farData = m.farData := rfl
@[simp] theorem Mach.setStack_farLost (m : Mach) (n : Nat) (v : Stack) : (m.setStack n v).farLost = m.farLost := rfl
@[simp] theorem Mach.setStack_txq (m : Mach) (n : Nat) (v : Stack) : (m.setStack n v).txq = m.txq := rfl
@[simp] theorem Mach.setStack_transfers (m : Mach) (n : Nat) (v : Stack) : (m.setStack n v).transfers = m.transfers := rfl
@[simp] theorem Mach.setStack_frags (m : Mach) (n : Nat) (v : Stack) : (m.setStack n v).frags = m.frags := rfl
@[simp] theorem Mach.setStack_rxcnt (m : Mach) (n : Nat) (v : Stack) : (m.setStack n v).rxcnt = m.rxcnt := rfl
@[simp] theorem Mach.setStack_fecHeard (m : Mach) (n : Nat) (v : Stack) : (m.setStack n v).fecHeard = m.fecHeard := rfl
@[simp] theorem Mach.setStack_requests (m : Mach) (n : Nat) (v : Stack) : (m.setStack n v).requests = m.requests := rfl
@[simp] theorem Mach.setStack_nextRid (m : Mach) (n : Nat) (v : Stack) : (m.setStack n v).nextRid = m.nextRid := rfl
@[simp] theorem Mach.setStack_fcnt (m : Mach) (n : Nat) (v : Stack) : (m.setStack n v).fcnt = m.fcnt := rfl
@[simp] theorem Mach.setStack_pair (m : Mach) (n : Nat) (v : Stack) : (m.setStack n v).pair = m.pair := rfl
@[simp] theorem Mach.setStack_elog (m : Mach) (n : Nat) (v : Stack) : (m.setStack n v).elog = m.elog := rfl
@[simp] theorem Mach.setStack_keys (m : Mach) (n : Nat) (v : Stack) : (m.setStack n v).keys = m.keys := rfl
@[simp] theorem Mach.setStack_routeNoted (m : Mach) (n : Nat) (v : Stack) : (m.setStack n v).routeNoted = m.routeNoted := rfl
@[simp] theorem Mach.setStack_unplugged (m : Mach) (n : Nat) (v : Stack) : (m.setStack n v).unplugged = m.unplugged := rfl
@[simp] theorem Mach.setStack_fecTimes (m : Mach) (n : Nat) (v : Stack) : (m.setStack n v).fecTimes = m.fecTimes := rfl
@[simp] theorem Mach.setStack_hdmError (m : Mach) (n : Nat) (v : Stack) : (m.setStack n v).hdmError = m.hdmError := rfl
@[simp] theorem Mach.setStack_accessed (m : Mach) (n : Nat) (v : Stack) : (m.setStack n v).accessed = m.accessed := rfl
@[simp] theorem Mach.setStack_ucieSlow (m : Mach) (n : Nat) (v : Stack) : (m.setStack n v).ucieSlow = m.ucieSlow := rfl
@[simp] theorem Mach.setStack_switch (m : Mach) (n : Nat) (v : Stack) : (m.setStack n v).switch = m.switch := rfl
@[simp] theorem Mach.setStack_selfCheck (m : Mach) (n : Nat) (v : Stack) : (m.setStack n v).selfCheck = m.selfCheck := rfl
@[simp] theorem Mach.setStack_power (m : Mach) (n : Nat) (v : Stack) : (m.setStack n v).power = m.power := rfl
@[simp] theorem Mach.setStack_trust (m : Mach) (n : Nat) (v : Stack) : (m.setStack n v).trust = m.trust := rfl
@[simp] theorem Mach.setStack_resets (m : Mach) (n : Nat) (v : Stack) : (m.setStack n v).resets = m.resets := rfl
@[simp] theorem Mach.setStack_out (m : Mach) (n : Nat) (v : Stack) : (m.setStack n v).out = m.out := rfl
@[simp] theorem Mach.core_setStack (m : Mach) (n : Nat) (v : Stack) (k : Nat) : (m.setStack n v).core k = m.core k := rfl
@[simp] theorem Mach.map_setStack (m : Mach) (n : Nat) (v : Stack) (k : Nat) : (m.setStack n v).map k = m.map k := rfl
@[simp] theorem Mach.bank_setStack (m : Mach) (n : Nat) (v : Stack) (a k : Nat) : (m.setStack n v).bank a k = m.bank a k := rfl
@[simp] theorem Mach.mon_setStack (m : Mach) (n : Nat) (v : Stack) (k : Nat) : (m.setStack n v).mon k = m.mon k := rfl
@[simp] theorem Mach.sess_setStack (m : Mach) (n : Nat) (v : Stack) (k : Nat) : (m.setStack n v).sess k = m.sess k := rfl
@[simp] theorem Mach.desc_setStack (m : Mach) (n : Nat) (v : Stack) (a k : Nat) : (m.setStack n v).desc a k = m.desc a k := rfl
@[simp] theorem Mach.dom_setStack (m : Mach) (n : Nat) (v : Stack) (k : Nat) : (m.setStack n v).dom k = m.dom k := rfl

/-! ## setBank -/
@[simp] theorem Mach.setBank_regs (m : Mach) (n b : Nat) (v : Bank) : (m.setBank n b v).regs = m.regs := rfl
@[simp] theorem Mach.setBank_time (m : Mach) (n b : Nat) (v : Bank) : (m.setBank n b v).time = m.time := rfl
@[simp] theorem Mach.setBank_fresh (m : Mach) (n b : Nat) (v : Bank) : (m.setBank n b v).fresh = m.fresh := rfl
@[simp] theorem Mach.setBank_mem (m : Mach) (n b : Nat) (v : Bank) : (m.setBank n b v).mem = m.mem := rfl
@[simp] theorem Mach.setBank_written (m : Mach) (n b : Nat) (v : Bank) : (m.setBank n b v).written = m.written := rfl
@[simp] theorem Mach.setBank_wrong (m : Mach) (n b : Nat) (v : Bank) : (m.setBank n b v).wrong = m.wrong := rfl
@[simp] theorem Mach.setBank_wmWrong (m : Mach) (n b : Nat) (v : Bank) : (m.setBank n b v).wmWrong = m.wmWrong := rfl
@[simp] theorem Mach.setBank_cache (m : Mach) (n b : Nat) (v : Bank) : (m.setBank n b v).cache = m.cache := rfl
@[simp] theorem Mach.setBank_istore (m : Mach) (n b : Nat) (v : Bank) : (m.setBank n b v).istore = m.istore := rfl
@[simp] theorem Mach.setBank_istoreWrong (m : Mach) (n b : Nat) (v : Bank) : (m.setBank n b v).istoreWrong = m.istoreWrong := rfl
@[simp] theorem Mach.setBank_sessWrong (m : Mach) (n b : Nat) (v : Bank) : (m.setBank n b v).sessWrong = m.sessWrong := rfl
@[simp] theorem Mach.setBank_hostMem (m : Mach) (n b : Nat) (v : Bank) : (m.setBank n b v).hostMem = m.hostMem := rfl
@[simp] theorem Mach.setBank_seqtab (m : Mach) (n b : Nat) (v : Bank) : (m.setBank n b v).seqtab = m.seqtab := rfl
@[simp] theorem Mach.setBank_sq (m : Mach) (n b : Nat) (v : Bank) : (m.setBank n b v).sq = m.sq := rfl
@[simp] theorem Mach.setBank_mons (m : Mach) (n b : Nat) (v : Bank) : (m.setBank n b v).mons = m.mons := rfl
@[simp] theorem Mach.setBank_traceStage (m : Mach) (n b : Nat) (v : Bank) : (m.setBank n b v).traceStage = m.traceStage := rfl
@[simp] theorem Mach.setBank_descs (m : Mach) (n b : Nat) (v : Bank) : (m.setBank n b v).descs = m.descs := rfl
@[simp] theorem Mach.setBank_creating (m : Mach) (n b : Nat) (v : Bank) : (m.setBank n b v).creating = m.creating := rfl
@[simp] theorem Mach.setBank_allocPend (m : Mach) (n b : Nat) (v : Bank) : (m.setBank n b v).allocPend = m.allocPend := rfl
@[simp] theorem Mach.setBank_forgets (m : Mach) (n b : Nat) (v : Bank) : (m.setBank n b v).forgets = m.forgets := rfl
@[simp] theorem Mach.setBank_adds (m : Mach) (n b : Nat) (v : Bank) : (m.setBank n b v).adds = m.adds := rfl
@[simp] theorem Mach.setBank_poolHead (m : Mach) (n b : Nat) (v : Bank) : (m.setBank n b v).poolHead = m.poolHead := rfl
@[simp] theorem Mach.setBank_stackTab (m : Mach) (n b : Nat) (v : Bank) : (m.setBank n b v).stackTab = m.stackTab := rfl
@[simp] theorem Mach.setBank_items (m : Mach) (n b : Nat) (v : Bank) : (m.setBank n b v).items = m.items := rfl
@[simp] theorem Mach.setBank_nextItem (m : Mach) (n b : Nat) (v : Bank) : (m.setBank n b v).nextItem = m.nextItem := rfl
@[simp] theorem Mach.setBank_rowCopy (m : Mach) (n b : Nat) (v : Bank) : (m.setBank n b v).rowCopy = m.rowCopy := rfl
@[simp] theorem Mach.setBank_coreMap (m : Mach) (n b : Nat) (v : Bank) : (m.setBank n b v).coreMap = m.coreMap := rfl
@[simp] theorem Mach.setBank_cores (m : Mach) (n b : Nat) (v : Bank) : (m.setBank n b v).cores = m.cores := rfl
@[simp] theorem Mach.setBank_groupStops (m : Mach) (n b : Nat) (v : Bank) : (m.setBank n b v).groupStops = m.groupStops := rfl
@[simp] theorem Mach.setBank_saved (m : Mach) (n b : Nat) (v : Bank) : (m.setBank n b v).saved = m.saved := rfl
@[simp] theorem Mach.setBank_doms (m : Mach) (n b : Nat) (v : Bank) : (m.setBank n b v).doms = m.doms := rfl
@[simp] theorem Mach.setBank_farOps (m : Mach) (n b : Nat) (v : Bank) : (m.setBank n b v).farOps = m.farOps := rfl
@[simp] theorem Mach.setBank_farData (m : Mach) (n b : Nat) (v : Bank) : (m.setBank n b v).farData = m.farData := rfl
@[simp] theorem Mach.setBank_farLost (m : Mach) (n b : Nat) (v : Bank) : (m.setBank n b v).farLost = m.farLost := rfl
@[simp] theorem Mach.setBank_txq (m : Mach) (n b : Nat) (v : Bank) : (m.setBank n b v).txq = m.txq := rfl
@[simp] theorem Mach.setBank_transfers (m : Mach) (n b : Nat) (v : Bank) : (m.setBank n b v).transfers = m.transfers := rfl
@[simp] theorem Mach.setBank_frags (m : Mach) (n b : Nat) (v : Bank) : (m.setBank n b v).frags = m.frags := rfl
@[simp] theorem Mach.setBank_rxcnt (m : Mach) (n b : Nat) (v : Bank) : (m.setBank n b v).rxcnt = m.rxcnt := rfl
@[simp] theorem Mach.setBank_fecHeard (m : Mach) (n b : Nat) (v : Bank) : (m.setBank n b v).fecHeard = m.fecHeard := rfl
@[simp] theorem Mach.setBank_requests (m : Mach) (n b : Nat) (v : Bank) : (m.setBank n b v).requests = m.requests := rfl
@[simp] theorem Mach.setBank_nextRid (m : Mach) (n b : Nat) (v : Bank) : (m.setBank n b v).nextRid = m.nextRid := rfl
@[simp] theorem Mach.setBank_fcnt (m : Mach) (n b : Nat) (v : Bank) : (m.setBank n b v).fcnt = m.fcnt := rfl
@[simp] theorem Mach.setBank_pair (m : Mach) (n b : Nat) (v : Bank) : (m.setBank n b v).pair = m.pair := rfl
@[simp] theorem Mach.setBank_elog (m : Mach) (n b : Nat) (v : Bank) : (m.setBank n b v).elog = m.elog := rfl
@[simp] theorem Mach.setBank_keys (m : Mach) (n b : Nat) (v : Bank) : (m.setBank n b v).keys = m.keys := rfl
@[simp] theorem Mach.setBank_routeNoted (m : Mach) (n b : Nat) (v : Bank) : (m.setBank n b v).routeNoted = m.routeNoted := rfl
@[simp] theorem Mach.setBank_unplugged (m : Mach) (n b : Nat) (v : Bank) : (m.setBank n b v).unplugged = m.unplugged := rfl
@[simp] theorem Mach.setBank_fecTimes (m : Mach) (n b : Nat) (v : Bank) : (m.setBank n b v).fecTimes = m.fecTimes := rfl
@[simp] theorem Mach.setBank_hdmError (m : Mach) (n b : Nat) (v : Bank) : (m.setBank n b v).hdmError = m.hdmError := rfl
@[simp] theorem Mach.setBank_accessed (m : Mach) (n b : Nat) (v : Bank) : (m.setBank n b v).accessed = m.accessed := rfl
@[simp] theorem Mach.setBank_ucieSlow (m : Mach) (n b : Nat) (v : Bank) : (m.setBank n b v).ucieSlow = m.ucieSlow := rfl
@[simp] theorem Mach.setBank_switch (m : Mach) (n b : Nat) (v : Bank) : (m.setBank n b v).switch = m.switch := rfl
@[simp] theorem Mach.setBank_selfCheck (m : Mach) (n b : Nat) (v : Bank) : (m.setBank n b v).selfCheck = m.selfCheck := rfl
@[simp] theorem Mach.setBank_power (m : Mach) (n b : Nat) (v : Bank) : (m.setBank n b v).power = m.power := rfl
@[simp] theorem Mach.setBank_trust (m : Mach) (n b : Nat) (v : Bank) : (m.setBank n b v).trust = m.trust := rfl
@[simp] theorem Mach.setBank_resets (m : Mach) (n b : Nat) (v : Bank) : (m.setBank n b v).resets = m.resets := rfl
@[simp] theorem Mach.setBank_out (m : Mach) (n b : Nat) (v : Bank) : (m.setBank n b v).out = m.out := rfl
@[simp] theorem Mach.core_setBank (m : Mach) (n b : Nat) (v : Bank) (k : Nat) : (m.setBank n b v).core k = m.core k := rfl
@[simp] theorem Mach.map_setBank (m : Mach) (n b : Nat) (v : Bank) (k : Nat) : (m.setBank n b v).map k = m.map k := rfl
@[simp] theorem Mach.stack_setBank (m : Mach) (n b : Nat) (v : Bank) (k : Nat) : (m.setBank n b v).stack k = m.stack k := rfl
@[simp] theorem Mach.mon_setBank (m : Mach) (n b : Nat) (v : Bank) (k : Nat) : (m.setBank n b v).mon k = m.mon k := rfl
@[simp] theorem Mach.sess_setBank (m : Mach) (n b : Nat) (v : Bank) (k : Nat) : (m.setBank n b v).sess k = m.sess k := rfl
@[simp] theorem Mach.desc_setBank (m : Mach) (n b : Nat) (v : Bank) (a k : Nat) : (m.setBank n b v).desc a k = m.desc a k := rfl
@[simp] theorem Mach.dom_setBank (m : Mach) (n b : Nat) (v : Bank) (k : Nat) : (m.setBank n b v).dom k = m.dom k := rfl

/-! ## setMon -/
@[simp] theorem Mach.setMon_regs (m : Mach) (p : Nat) (v : Mon) : (m.setMon p v).regs = m.regs := rfl
@[simp] theorem Mach.setMon_time (m : Mach) (p : Nat) (v : Mon) : (m.setMon p v).time = m.time := rfl
@[simp] theorem Mach.setMon_fresh (m : Mach) (p : Nat) (v : Mon) : (m.setMon p v).fresh = m.fresh := rfl
@[simp] theorem Mach.setMon_mem (m : Mach) (p : Nat) (v : Mon) : (m.setMon p v).mem = m.mem := rfl
@[simp] theorem Mach.setMon_written (m : Mach) (p : Nat) (v : Mon) : (m.setMon p v).written = m.written := rfl
@[simp] theorem Mach.setMon_wrong (m : Mach) (p : Nat) (v : Mon) : (m.setMon p v).wrong = m.wrong := rfl
@[simp] theorem Mach.setMon_wmWrong (m : Mach) (p : Nat) (v : Mon) : (m.setMon p v).wmWrong = m.wmWrong := rfl
@[simp] theorem Mach.setMon_cache (m : Mach) (p : Nat) (v : Mon) : (m.setMon p v).cache = m.cache := rfl
@[simp] theorem Mach.setMon_istore (m : Mach) (p : Nat) (v : Mon) : (m.setMon p v).istore = m.istore := rfl
@[simp] theorem Mach.setMon_istoreWrong (m : Mach) (p : Nat) (v : Mon) : (m.setMon p v).istoreWrong = m.istoreWrong := rfl
@[simp] theorem Mach.setMon_sessWrong (m : Mach) (p : Nat) (v : Mon) : (m.setMon p v).sessWrong = m.sessWrong := rfl
@[simp] theorem Mach.setMon_hostMem (m : Mach) (p : Nat) (v : Mon) : (m.setMon p v).hostMem = m.hostMem := rfl
@[simp] theorem Mach.setMon_seqtab (m : Mach) (p : Nat) (v : Mon) : (m.setMon p v).seqtab = m.seqtab := rfl
@[simp] theorem Mach.setMon_sq (m : Mach) (p : Nat) (v : Mon) : (m.setMon p v).sq = m.sq := rfl
@[simp] theorem Mach.setMon_traceStage (m : Mach) (p : Nat) (v : Mon) : (m.setMon p v).traceStage = m.traceStage := rfl
@[simp] theorem Mach.setMon_descs (m : Mach) (p : Nat) (v : Mon) : (m.setMon p v).descs = m.descs := rfl
@[simp] theorem Mach.setMon_creating (m : Mach) (p : Nat) (v : Mon) : (m.setMon p v).creating = m.creating := rfl
@[simp] theorem Mach.setMon_allocPend (m : Mach) (p : Nat) (v : Mon) : (m.setMon p v).allocPend = m.allocPend := rfl
@[simp] theorem Mach.setMon_forgets (m : Mach) (p : Nat) (v : Mon) : (m.setMon p v).forgets = m.forgets := rfl
@[simp] theorem Mach.setMon_adds (m : Mach) (p : Nat) (v : Mon) : (m.setMon p v).adds = m.adds := rfl
@[simp] theorem Mach.setMon_poolHead (m : Mach) (p : Nat) (v : Mon) : (m.setMon p v).poolHead = m.poolHead := rfl
@[simp] theorem Mach.setMon_stackTab (m : Mach) (p : Nat) (v : Mon) : (m.setMon p v).stackTab = m.stackTab := rfl
@[simp] theorem Mach.setMon_banks (m : Mach) (p : Nat) (v : Mon) : (m.setMon p v).banks = m.banks := rfl
@[simp] theorem Mach.setMon_items (m : Mach) (p : Nat) (v : Mon) : (m.setMon p v).items = m.items := rfl
@[simp] theorem Mach.setMon_nextItem (m : Mach) (p : Nat) (v : Mon) : (m.setMon p v).nextItem = m.nextItem := rfl
@[simp] theorem Mach.setMon_rowCopy (m : Mach) (p : Nat) (v : Mon) : (m.setMon p v).rowCopy = m.rowCopy := rfl
@[simp] theorem Mach.setMon_coreMap (m : Mach) (p : Nat) (v : Mon) : (m.setMon p v).coreMap = m.coreMap := rfl
@[simp] theorem Mach.setMon_cores (m : Mach) (p : Nat) (v : Mon) : (m.setMon p v).cores = m.cores := rfl
@[simp] theorem Mach.setMon_groupStops (m : Mach) (p : Nat) (v : Mon) : (m.setMon p v).groupStops = m.groupStops := rfl
@[simp] theorem Mach.setMon_saved (m : Mach) (p : Nat) (v : Mon) : (m.setMon p v).saved = m.saved := rfl
@[simp] theorem Mach.setMon_doms (m : Mach) (p : Nat) (v : Mon) : (m.setMon p v).doms = m.doms := rfl
@[simp] theorem Mach.setMon_farOps (m : Mach) (p : Nat) (v : Mon) : (m.setMon p v).farOps = m.farOps := rfl
@[simp] theorem Mach.setMon_farData (m : Mach) (p : Nat) (v : Mon) : (m.setMon p v).farData = m.farData := rfl
@[simp] theorem Mach.setMon_farLost (m : Mach) (p : Nat) (v : Mon) : (m.setMon p v).farLost = m.farLost := rfl
@[simp] theorem Mach.setMon_txq (m : Mach) (p : Nat) (v : Mon) : (m.setMon p v).txq = m.txq := rfl
@[simp] theorem Mach.setMon_transfers (m : Mach) (p : Nat) (v : Mon) : (m.setMon p v).transfers = m.transfers := rfl
@[simp] theorem Mach.setMon_frags (m : Mach) (p : Nat) (v : Mon) : (m.setMon p v).frags = m.frags := rfl
@[simp] theorem Mach.setMon_rxcnt (m : Mach) (p : Nat) (v : Mon) : (m.setMon p v).rxcnt = m.rxcnt := rfl
@[simp] theorem Mach.setMon_fecHeard (m : Mach) (p : Nat) (v : Mon) : (m.setMon p v).fecHeard = m.fecHeard := rfl
@[simp] theorem Mach.setMon_requests (m : Mach) (p : Nat) (v : Mon) : (m.setMon p v).requests = m.requests := rfl
@[simp] theorem Mach.setMon_nextRid (m : Mach) (p : Nat) (v : Mon) : (m.setMon p v).nextRid = m.nextRid := rfl
@[simp] theorem Mach.setMon_fcnt (m : Mach) (p : Nat) (v : Mon) : (m.setMon p v).fcnt = m.fcnt := rfl
@[simp] theorem Mach.setMon_pair (m : Mach) (p : Nat) (v : Mon) : (m.setMon p v).pair = m.pair := rfl
@[simp] theorem Mach.setMon_elog (m : Mach) (p : Nat) (v : Mon) : (m.setMon p v).elog = m.elog := rfl
@[simp] theorem Mach.setMon_keys (m : Mach) (p : Nat) (v : Mon) : (m.setMon p v).keys = m.keys := rfl
@[simp] theorem Mach.setMon_routeNoted (m : Mach) (p : Nat) (v : Mon) : (m.setMon p v).routeNoted = m.routeNoted := rfl
@[simp] theorem Mach.setMon_unplugged (m : Mach) (p : Nat) (v : Mon) : (m.setMon p v).unplugged = m.unplugged := rfl
@[simp] theorem Mach.setMon_fecTimes (m : Mach) (p : Nat) (v : Mon) : (m.setMon p v).fecTimes = m.fecTimes := rfl
@[simp] theorem Mach.setMon_hdmError (m : Mach) (p : Nat) (v : Mon) : (m.setMon p v).hdmError = m.hdmError := rfl
@[simp] theorem Mach.setMon_accessed (m : Mach) (p : Nat) (v : Mon) : (m.setMon p v).accessed = m.accessed := rfl
@[simp] theorem Mach.setMon_ucieSlow (m : Mach) (p : Nat) (v : Mon) : (m.setMon p v).ucieSlow = m.ucieSlow := rfl
@[simp] theorem Mach.setMon_switch (m : Mach) (p : Nat) (v : Mon) : (m.setMon p v).switch = m.switch := rfl
@[simp] theorem Mach.setMon_selfCheck (m : Mach) (p : Nat) (v : Mon) : (m.setMon p v).selfCheck = m.selfCheck := rfl
@[simp] theorem Mach.setMon_power (m : Mach) (p : Nat) (v : Mon) : (m.setMon p v).power = m.power := rfl
@[simp] theorem Mach.setMon_trust (m : Mach) (p : Nat) (v : Mon) : (m.setMon p v).trust = m.trust := rfl
@[simp] theorem Mach.setMon_resets (m : Mach) (p : Nat) (v : Mon) : (m.setMon p v).resets = m.resets := rfl
@[simp] theorem Mach.setMon_out (m : Mach) (p : Nat) (v : Mon) : (m.setMon p v).out = m.out := rfl
@[simp] theorem Mach.core_setMon (m : Mach) (p : Nat) (v : Mon) (k : Nat) : (m.setMon p v).core k = m.core k := rfl
@[simp] theorem Mach.map_setMon (m : Mach) (p : Nat) (v : Mon) (k : Nat) : (m.setMon p v).map k = m.map k := rfl
@[simp] theorem Mach.stack_setMon (m : Mach) (p : Nat) (v : Mon) (k : Nat) : (m.setMon p v).stack k = m.stack k := rfl
@[simp] theorem Mach.bank_setMon (m : Mach) (p : Nat) (v : Mon) (a k : Nat) : (m.setMon p v).bank a k = m.bank a k := rfl
@[simp] theorem Mach.sess_setMon (m : Mach) (p : Nat) (v : Mon) (k : Nat) : (m.setMon p v).sess k = m.sess k := rfl
@[simp] theorem Mach.desc_setMon (m : Mach) (p : Nat) (v : Mon) (a k : Nat) : (m.setMon p v).desc a k = m.desc a k := rfl
@[simp] theorem Mach.dom_setMon (m : Mach) (p : Nat) (v : Mon) (k : Nat) : (m.setMon p v).dom k = m.dom k := rfl

/-! ## setSess -/
@[simp] theorem Mach.setSess_regs (m : Mach) (i : Nat) (v : SEntry) : (m.setSess i v).regs = m.regs := rfl
@[simp] theorem Mach.setSess_time (m : Mach) (i : Nat) (v : SEntry) : (m.setSess i v).time = m.time := rfl
@[simp] theorem Mach.setSess_fresh (m : Mach) (i : Nat) (v : SEntry) : (m.setSess i v).fresh = m.fresh := rfl
@[simp] theorem Mach.setSess_mem (m : Mach) (i : Nat) (v : SEntry) : (m.setSess i v).mem = m.mem := rfl
@[simp] theorem Mach.setSess_written (m : Mach) (i : Nat) (v : SEntry) : (m.setSess i v).written = m.written := rfl
@[simp] theorem Mach.setSess_wrong (m : Mach) (i : Nat) (v : SEntry) : (m.setSess i v).wrong = m.wrong := rfl
@[simp] theorem Mach.setSess_wmWrong (m : Mach) (i : Nat) (v : SEntry) : (m.setSess i v).wmWrong = m.wmWrong := rfl
@[simp] theorem Mach.setSess_cache (m : Mach) (i : Nat) (v : SEntry) : (m.setSess i v).cache = m.cache := rfl
@[simp] theorem Mach.setSess_istore (m : Mach) (i : Nat) (v : SEntry) : (m.setSess i v).istore = m.istore := rfl
@[simp] theorem Mach.setSess_istoreWrong (m : Mach) (i : Nat) (v : SEntry) : (m.setSess i v).istoreWrong = m.istoreWrong := rfl
@[simp] theorem Mach.setSess_sessWrong (m : Mach) (i : Nat) (v : SEntry) : (m.setSess i v).sessWrong = m.sessWrong := rfl
@[simp] theorem Mach.setSess_hostMem (m : Mach) (i : Nat) (v : SEntry) : (m.setSess i v).hostMem = m.hostMem := rfl
@[simp] theorem Mach.setSess_sq (m : Mach) (i : Nat) (v : SEntry) : (m.setSess i v).sq = m.sq := rfl
@[simp] theorem Mach.setSess_mons (m : Mach) (i : Nat) (v : SEntry) : (m.setSess i v).mons = m.mons := rfl
@[simp] theorem Mach.setSess_traceStage (m : Mach) (i : Nat) (v : SEntry) : (m.setSess i v).traceStage = m.traceStage := rfl
@[simp] theorem Mach.setSess_descs (m : Mach) (i : Nat) (v : SEntry) : (m.setSess i v).descs = m.descs := rfl
@[simp] theorem Mach.setSess_creating (m : Mach) (i : Nat) (v : SEntry) : (m.setSess i v).creating = m.creating := rfl
@[simp] theorem Mach.setSess_allocPend (m : Mach) (i : Nat) (v : SEntry) : (m.setSess i v).allocPend = m.allocPend := rfl
@[simp] theorem Mach.setSess_forgets (m : Mach) (i : Nat) (v : SEntry) : (m.setSess i v).forgets = m.forgets := rfl
@[simp] theorem Mach.setSess_adds (m : Mach) (i : Nat) (v : SEntry) : (m.setSess i v).adds = m.adds := rfl
@[simp] theorem Mach.setSess_poolHead (m : Mach) (i : Nat) (v : SEntry) : (m.setSess i v).poolHead = m.poolHead := rfl
@[simp] theorem Mach.setSess_stackTab (m : Mach) (i : Nat) (v : SEntry) : (m.setSess i v).stackTab = m.stackTab := rfl
@[simp] theorem Mach.setSess_banks (m : Mach) (i : Nat) (v : SEntry) : (m.setSess i v).banks = m.banks := rfl
@[simp] theorem Mach.setSess_items (m : Mach) (i : Nat) (v : SEntry) : (m.setSess i v).items = m.items := rfl
@[simp] theorem Mach.setSess_nextItem (m : Mach) (i : Nat) (v : SEntry) : (m.setSess i v).nextItem = m.nextItem := rfl
@[simp] theorem Mach.setSess_rowCopy (m : Mach) (i : Nat) (v : SEntry) : (m.setSess i v).rowCopy = m.rowCopy := rfl
@[simp] theorem Mach.setSess_coreMap (m : Mach) (i : Nat) (v : SEntry) : (m.setSess i v).coreMap = m.coreMap := rfl
@[simp] theorem Mach.setSess_cores (m : Mach) (i : Nat) (v : SEntry) : (m.setSess i v).cores = m.cores := rfl
@[simp] theorem Mach.setSess_groupStops (m : Mach) (i : Nat) (v : SEntry) : (m.setSess i v).groupStops = m.groupStops := rfl
@[simp] theorem Mach.setSess_saved (m : Mach) (i : Nat) (v : SEntry) : (m.setSess i v).saved = m.saved := rfl
@[simp] theorem Mach.setSess_doms (m : Mach) (i : Nat) (v : SEntry) : (m.setSess i v).doms = m.doms := rfl
@[simp] theorem Mach.setSess_farOps (m : Mach) (i : Nat) (v : SEntry) : (m.setSess i v).farOps = m.farOps := rfl
@[simp] theorem Mach.setSess_farData (m : Mach) (i : Nat) (v : SEntry) : (m.setSess i v).farData = m.farData := rfl
@[simp] theorem Mach.setSess_farLost (m : Mach) (i : Nat) (v : SEntry) : (m.setSess i v).farLost = m.farLost := rfl
@[simp] theorem Mach.setSess_txq (m : Mach) (i : Nat) (v : SEntry) : (m.setSess i v).txq = m.txq := rfl
@[simp] theorem Mach.setSess_transfers (m : Mach) (i : Nat) (v : SEntry) : (m.setSess i v).transfers = m.transfers := rfl
@[simp] theorem Mach.setSess_frags (m : Mach) (i : Nat) (v : SEntry) : (m.setSess i v).frags = m.frags := rfl
@[simp] theorem Mach.setSess_rxcnt (m : Mach) (i : Nat) (v : SEntry) : (m.setSess i v).rxcnt = m.rxcnt := rfl
@[simp] theorem Mach.setSess_fecHeard (m : Mach) (i : Nat) (v : SEntry) : (m.setSess i v).fecHeard = m.fecHeard := rfl
@[simp] theorem Mach.setSess_requests (m : Mach) (i : Nat) (v : SEntry) : (m.setSess i v).requests = m.requests := rfl
@[simp] theorem Mach.setSess_nextRid (m : Mach) (i : Nat) (v : SEntry) : (m.setSess i v).nextRid = m.nextRid := rfl
@[simp] theorem Mach.setSess_fcnt (m : Mach) (i : Nat) (v : SEntry) : (m.setSess i v).fcnt = m.fcnt := rfl
@[simp] theorem Mach.setSess_pair (m : Mach) (i : Nat) (v : SEntry) : (m.setSess i v).pair = m.pair := rfl
@[simp] theorem Mach.setSess_elog (m : Mach) (i : Nat) (v : SEntry) : (m.setSess i v).elog = m.elog := rfl
@[simp] theorem Mach.setSess_keys (m : Mach) (i : Nat) (v : SEntry) : (m.setSess i v).keys = m.keys := rfl
@[simp] theorem Mach.setSess_routeNoted (m : Mach) (i : Nat) (v : SEntry) : (m.setSess i v).routeNoted = m.routeNoted := rfl
@[simp] theorem Mach.setSess_unplugged (m : Mach) (i : Nat) (v : SEntry) : (m.setSess i v).unplugged = m.unplugged := rfl
@[simp] theorem Mach.setSess_fecTimes (m : Mach) (i : Nat) (v : SEntry) : (m.setSess i v).fecTimes = m.fecTimes := rfl
@[simp] theorem Mach.setSess_hdmError (m : Mach) (i : Nat) (v : SEntry) : (m.setSess i v).hdmError = m.hdmError := rfl
@[simp] theorem Mach.setSess_accessed (m : Mach) (i : Nat) (v : SEntry) : (m.setSess i v).accessed = m.accessed := rfl
@[simp] theorem Mach.setSess_ucieSlow (m : Mach) (i : Nat) (v : SEntry) : (m.setSess i v).ucieSlow = m.ucieSlow := rfl
@[simp] theorem Mach.setSess_switch (m : Mach) (i : Nat) (v : SEntry) : (m.setSess i v).switch = m.switch := rfl
@[simp] theorem Mach.setSess_selfCheck (m : Mach) (i : Nat) (v : SEntry) : (m.setSess i v).selfCheck = m.selfCheck := rfl
@[simp] theorem Mach.setSess_power (m : Mach) (i : Nat) (v : SEntry) : (m.setSess i v).power = m.power := rfl
@[simp] theorem Mach.setSess_trust (m : Mach) (i : Nat) (v : SEntry) : (m.setSess i v).trust = m.trust := rfl
@[simp] theorem Mach.setSess_resets (m : Mach) (i : Nat) (v : SEntry) : (m.setSess i v).resets = m.resets := rfl
@[simp] theorem Mach.setSess_out (m : Mach) (i : Nat) (v : SEntry) : (m.setSess i v).out = m.out := rfl
@[simp] theorem Mach.core_setSess (m : Mach) (i : Nat) (v : SEntry) (k : Nat) : (m.setSess i v).core k = m.core k := rfl
@[simp] theorem Mach.map_setSess (m : Mach) (i : Nat) (v : SEntry) (k : Nat) : (m.setSess i v).map k = m.map k := rfl
@[simp] theorem Mach.stack_setSess (m : Mach) (i : Nat) (v : SEntry) (k : Nat) : (m.setSess i v).stack k = m.stack k := rfl
@[simp] theorem Mach.bank_setSess (m : Mach) (i : Nat) (v : SEntry) (a k : Nat) : (m.setSess i v).bank a k = m.bank a k := rfl
@[simp] theorem Mach.mon_setSess (m : Mach) (i : Nat) (v : SEntry) (k : Nat) : (m.setSess i v).mon k = m.mon k := rfl
@[simp] theorem Mach.desc_setSess (m : Mach) (i : Nat) (v : SEntry) (a k : Nat) : (m.setSess i v).desc a k = m.desc a k := rfl
@[simp] theorem Mach.dom_setSess (m : Mach) (i : Nat) (v : SEntry) (k : Nat) : (m.setSess i v).dom k = m.dom k := rfl

/-! ## setDom -/
@[simp] theorem Mach.setDom_regs (m : Mach) (d : Nat) (v : Dom) : (m.setDom d v).regs = m.regs := rfl
@[simp] theorem Mach.setDom_time (m : Mach) (d : Nat) (v : Dom) : (m.setDom d v).time = m.time := rfl
@[simp] theorem Mach.setDom_fresh (m : Mach) (d : Nat) (v : Dom) : (m.setDom d v).fresh = m.fresh := rfl
@[simp] theorem Mach.setDom_mem (m : Mach) (d : Nat) (v : Dom) : (m.setDom d v).mem = m.mem := rfl
@[simp] theorem Mach.setDom_written (m : Mach) (d : Nat) (v : Dom) : (m.setDom d v).written = m.written := rfl
@[simp] theorem Mach.setDom_wrong (m : Mach) (d : Nat) (v : Dom) : (m.setDom d v).wrong = m.wrong := rfl
@[simp] theorem Mach.setDom_wmWrong (m : Mach) (d : Nat) (v : Dom) : (m.setDom d v).wmWrong = m.wmWrong := rfl
@[simp] theorem Mach.setDom_cache (m : Mach) (d : Nat) (v : Dom) : (m.setDom d v).cache = m.cache := rfl
@[simp] theorem Mach.setDom_istore (m : Mach) (d : Nat) (v : Dom) : (m.setDom d v).istore = m.istore := rfl
@[simp] theorem Mach.setDom_istoreWrong (m : Mach) (d : Nat) (v : Dom) : (m.setDom d v).istoreWrong = m.istoreWrong := rfl
@[simp] theorem Mach.setDom_sessWrong (m : Mach) (d : Nat) (v : Dom) : (m.setDom d v).sessWrong = m.sessWrong := rfl
@[simp] theorem Mach.setDom_hostMem (m : Mach) (d : Nat) (v : Dom) : (m.setDom d v).hostMem = m.hostMem := rfl
@[simp] theorem Mach.setDom_seqtab (m : Mach) (d : Nat) (v : Dom) : (m.setDom d v).seqtab = m.seqtab := rfl
@[simp] theorem Mach.setDom_sq (m : Mach) (d : Nat) (v : Dom) : (m.setDom d v).sq = m.sq := rfl
@[simp] theorem Mach.setDom_mons (m : Mach) (d : Nat) (v : Dom) : (m.setDom d v).mons = m.mons := rfl
@[simp] theorem Mach.setDom_traceStage (m : Mach) (d : Nat) (v : Dom) : (m.setDom d v).traceStage = m.traceStage := rfl
@[simp] theorem Mach.setDom_descs (m : Mach) (d : Nat) (v : Dom) : (m.setDom d v).descs = m.descs := rfl
@[simp] theorem Mach.setDom_creating (m : Mach) (d : Nat) (v : Dom) : (m.setDom d v).creating = m.creating := rfl
@[simp] theorem Mach.setDom_allocPend (m : Mach) (d : Nat) (v : Dom) : (m.setDom d v).allocPend = m.allocPend := rfl
@[simp] theorem Mach.setDom_forgets (m : Mach) (d : Nat) (v : Dom) : (m.setDom d v).forgets = m.forgets := rfl
@[simp] theorem Mach.setDom_adds (m : Mach) (d : Nat) (v : Dom) : (m.setDom d v).adds = m.adds := rfl
@[simp] theorem Mach.setDom_poolHead (m : Mach) (d : Nat) (v : Dom) : (m.setDom d v).poolHead = m.poolHead := rfl
@[simp] theorem Mach.setDom_stackTab (m : Mach) (d : Nat) (v : Dom) : (m.setDom d v).stackTab = m.stackTab := rfl
@[simp] theorem Mach.setDom_banks (m : Mach) (d : Nat) (v : Dom) : (m.setDom d v).banks = m.banks := rfl
@[simp] theorem Mach.setDom_items (m : Mach) (d : Nat) (v : Dom) : (m.setDom d v).items = m.items := rfl
@[simp] theorem Mach.setDom_nextItem (m : Mach) (d : Nat) (v : Dom) : (m.setDom d v).nextItem = m.nextItem := rfl
@[simp] theorem Mach.setDom_rowCopy (m : Mach) (d : Nat) (v : Dom) : (m.setDom d v).rowCopy = m.rowCopy := rfl
@[simp] theorem Mach.setDom_coreMap (m : Mach) (d : Nat) (v : Dom) : (m.setDom d v).coreMap = m.coreMap := rfl
@[simp] theorem Mach.setDom_cores (m : Mach) (d : Nat) (v : Dom) : (m.setDom d v).cores = m.cores := rfl
@[simp] theorem Mach.setDom_groupStops (m : Mach) (d : Nat) (v : Dom) : (m.setDom d v).groupStops = m.groupStops := rfl
@[simp] theorem Mach.setDom_saved (m : Mach) (d : Nat) (v : Dom) : (m.setDom d v).saved = m.saved := rfl
@[simp] theorem Mach.setDom_farOps (m : Mach) (d : Nat) (v : Dom) : (m.setDom d v).farOps = m.farOps := rfl
@[simp] theorem Mach.setDom_farData (m : Mach) (d : Nat) (v : Dom) : (m.setDom d v).farData = m.farData := rfl
@[simp] theorem Mach.setDom_farLost (m : Mach) (d : Nat) (v : Dom) : (m.setDom d v).farLost = m.farLost := rfl
@[simp] theorem Mach.setDom_txq (m : Mach) (d : Nat) (v : Dom) : (m.setDom d v).txq = m.txq := rfl
@[simp] theorem Mach.setDom_transfers (m : Mach) (d : Nat) (v : Dom) : (m.setDom d v).transfers = m.transfers := rfl
@[simp] theorem Mach.setDom_frags (m : Mach) (d : Nat) (v : Dom) : (m.setDom d v).frags = m.frags := rfl
@[simp] theorem Mach.setDom_rxcnt (m : Mach) (d : Nat) (v : Dom) : (m.setDom d v).rxcnt = m.rxcnt := rfl
@[simp] theorem Mach.setDom_fecHeard (m : Mach) (d : Nat) (v : Dom) : (m.setDom d v).fecHeard = m.fecHeard := rfl
@[simp] theorem Mach.setDom_requests (m : Mach) (d : Nat) (v : Dom) : (m.setDom d v).requests = m.requests := rfl
@[simp] theorem Mach.setDom_nextRid (m : Mach) (d : Nat) (v : Dom) : (m.setDom d v).nextRid = m.nextRid := rfl
@[simp] theorem Mach.setDom_fcnt (m : Mach) (d : Nat) (v : Dom) : (m.setDom d v).fcnt = m.fcnt := rfl
@[simp] theorem Mach.setDom_pair (m : Mach) (d : Nat) (v : Dom) : (m.setDom d v).pair = m.pair := rfl
@[simp] theorem Mach.setDom_elog (m : Mach) (d : Nat) (v : Dom) : (m.setDom d v).elog = m.elog := rfl
@[simp] theorem Mach.setDom_keys (m : Mach) (d : Nat) (v : Dom) : (m.setDom d v).keys = m.keys := rfl
@[simp] theorem Mach.setDom_routeNoted (m : Mach) (d : Nat) (v : Dom) : (m.setDom d v).routeNoted = m.routeNoted := rfl
@[simp] theorem Mach.setDom_unplugged (m : Mach) (d : Nat) (v : Dom) : (m.setDom d v).unplugged = m.unplugged := rfl
@[simp] theorem Mach.setDom_fecTimes (m : Mach) (d : Nat) (v : Dom) : (m.setDom d v).fecTimes = m.fecTimes := rfl
@[simp] theorem Mach.setDom_hdmError (m : Mach) (d : Nat) (v : Dom) : (m.setDom d v).hdmError = m.hdmError := rfl
@[simp] theorem Mach.setDom_accessed (m : Mach) (d : Nat) (v : Dom) : (m.setDom d v).accessed = m.accessed := rfl
@[simp] theorem Mach.setDom_ucieSlow (m : Mach) (d : Nat) (v : Dom) : (m.setDom d v).ucieSlow = m.ucieSlow := rfl
@[simp] theorem Mach.setDom_switch (m : Mach) (d : Nat) (v : Dom) : (m.setDom d v).switch = m.switch := rfl
@[simp] theorem Mach.setDom_selfCheck (m : Mach) (d : Nat) (v : Dom) : (m.setDom d v).selfCheck = m.selfCheck := rfl
@[simp] theorem Mach.setDom_power (m : Mach) (d : Nat) (v : Dom) : (m.setDom d v).power = m.power := rfl
@[simp] theorem Mach.setDom_trust (m : Mach) (d : Nat) (v : Dom) : (m.setDom d v).trust = m.trust := rfl
@[simp] theorem Mach.setDom_resets (m : Mach) (d : Nat) (v : Dom) : (m.setDom d v).resets = m.resets := rfl
@[simp] theorem Mach.setDom_out (m : Mach) (d : Nat) (v : Dom) : (m.setDom d v).out = m.out := rfl
@[simp] theorem Mach.core_setDom (m : Mach) (d : Nat) (v : Dom) (k : Nat) : (m.setDom d v).core k = m.core k := rfl
@[simp] theorem Mach.map_setDom (m : Mach) (d : Nat) (v : Dom) (k : Nat) : (m.setDom d v).map k = m.map k := rfl
@[simp] theorem Mach.stack_setDom (m : Mach) (d : Nat) (v : Dom) (k : Nat) : (m.setDom d v).stack k = m.stack k := rfl
@[simp] theorem Mach.bank_setDom (m : Mach) (d : Nat) (v : Dom) (a k : Nat) : (m.setDom d v).bank a k = m.bank a k := rfl
@[simp] theorem Mach.mon_setDom (m : Mach) (d : Nat) (v : Dom) (k : Nat) : (m.setDom d v).mon k = m.mon k := rfl
@[simp] theorem Mach.sess_setDom (m : Mach) (d : Nat) (v : Dom) (k : Nat) : (m.setDom d v).sess k = m.sess k := rfl
@[simp] theorem Mach.desc_setDom (m : Mach) (d : Nat) (v : Dom) (a k : Nat) : (m.setDom d v).desc a k = m.desc a k := rfl

/-! ## setIssued -/
@[simp] theorem Mach.setIssued_regs (m : Mach) (v : Issued) : (m.setIssued v).regs = m.regs := rfl
@[simp] theorem Mach.setIssued_time (m : Mach) (v : Issued) : (m.setIssued v).time = m.time := rfl
@[simp] theorem Mach.setIssued_fresh (m : Mach) (v : Issued) : (m.setIssued v).fresh = m.fresh := rfl
@[simp] theorem Mach.setIssued_mem (m : Mach) (v : Issued) : (m.setIssued v).mem = m.mem := rfl
@[simp] theorem Mach.setIssued_written (m : Mach) (v : Issued) : (m.setIssued v).written = m.written := rfl
@[simp] theorem Mach.setIssued_wrong (m : Mach) (v : Issued) : (m.setIssued v).wrong = m.wrong := rfl
@[simp] theorem Mach.setIssued_wmWrong (m : Mach) (v : Issued) : (m.setIssued v).wmWrong = m.wmWrong := rfl
@[simp] theorem Mach.setIssued_cache (m : Mach) (v : Issued) : (m.setIssued v).cache = m.cache := rfl
@[simp] theorem Mach.setIssued_istore (m : Mach) (v : Issued) : (m.setIssued v).istore = m.istore := rfl
@[simp] theorem Mach.setIssued_istoreWrong (m : Mach) (v : Issued) : (m.setIssued v).istoreWrong = m.istoreWrong := rfl
@[simp] theorem Mach.setIssued_sessWrong (m : Mach) (v : Issued) : (m.setIssued v).sessWrong = m.sessWrong := rfl
@[simp] theorem Mach.setIssued_hostMem (m : Mach) (v : Issued) : (m.setIssued v).hostMem = m.hostMem := rfl
@[simp] theorem Mach.setIssued_seqtab (m : Mach) (v : Issued) : (m.setIssued v).seqtab = m.seqtab := rfl
@[simp] theorem Mach.setIssued_mons (m : Mach) (v : Issued) : (m.setIssued v).mons = m.mons := rfl
@[simp] theorem Mach.setIssued_traceStage (m : Mach) (v : Issued) : (m.setIssued v).traceStage = m.traceStage := rfl
@[simp] theorem Mach.setIssued_descs (m : Mach) (v : Issued) : (m.setIssued v).descs = m.descs := rfl
@[simp] theorem Mach.setIssued_creating (m : Mach) (v : Issued) : (m.setIssued v).creating = m.creating := rfl
@[simp] theorem Mach.setIssued_allocPend (m : Mach) (v : Issued) : (m.setIssued v).allocPend = m.allocPend := rfl
@[simp] theorem Mach.setIssued_forgets (m : Mach) (v : Issued) : (m.setIssued v).forgets = m.forgets := rfl
@[simp] theorem Mach.setIssued_adds (m : Mach) (v : Issued) : (m.setIssued v).adds = m.adds := rfl
@[simp] theorem Mach.setIssued_poolHead (m : Mach) (v : Issued) : (m.setIssued v).poolHead = m.poolHead := rfl
@[simp] theorem Mach.setIssued_stackTab (m : Mach) (v : Issued) : (m.setIssued v).stackTab = m.stackTab := rfl
@[simp] theorem Mach.setIssued_banks (m : Mach) (v : Issued) : (m.setIssued v).banks = m.banks := rfl
@[simp] theorem Mach.setIssued_items (m : Mach) (v : Issued) : (m.setIssued v).items = m.items := rfl
@[simp] theorem Mach.setIssued_nextItem (m : Mach) (v : Issued) : (m.setIssued v).nextItem = m.nextItem := rfl
@[simp] theorem Mach.setIssued_rowCopy (m : Mach) (v : Issued) : (m.setIssued v).rowCopy = m.rowCopy := rfl
@[simp] theorem Mach.setIssued_coreMap (m : Mach) (v : Issued) : (m.setIssued v).coreMap = m.coreMap := rfl
@[simp] theorem Mach.setIssued_cores (m : Mach) (v : Issued) : (m.setIssued v).cores = m.cores := rfl
@[simp] theorem Mach.setIssued_groupStops (m : Mach) (v : Issued) : (m.setIssued v).groupStops = m.groupStops := rfl
@[simp] theorem Mach.setIssued_saved (m : Mach) (v : Issued) : (m.setIssued v).saved = m.saved := rfl
@[simp] theorem Mach.setIssued_doms (m : Mach) (v : Issued) : (m.setIssued v).doms = m.doms := rfl
@[simp] theorem Mach.setIssued_farOps (m : Mach) (v : Issued) : (m.setIssued v).farOps = m.farOps := rfl
@[simp] theorem Mach.setIssued_farData (m : Mach) (v : Issued) : (m.setIssued v).farData = m.farData := rfl
@[simp] theorem Mach.setIssued_farLost (m : Mach) (v : Issued) : (m.setIssued v).farLost = m.farLost := rfl
@[simp] theorem Mach.setIssued_txq (m : Mach) (v : Issued) : (m.setIssued v).txq = m.txq := rfl
@[simp] theorem Mach.setIssued_transfers (m : Mach) (v : Issued) : (m.setIssued v).transfers = m.transfers := rfl
@[simp] theorem Mach.setIssued_frags (m : Mach) (v : Issued) : (m.setIssued v).frags = m.frags := rfl
@[simp] theorem Mach.setIssued_rxcnt (m : Mach) (v : Issued) : (m.setIssued v).rxcnt = m.rxcnt := rfl
@[simp] theorem Mach.setIssued_fecHeard (m : Mach) (v : Issued) : (m.setIssued v).fecHeard = m.fecHeard := rfl
@[simp] theorem Mach.setIssued_requests (m : Mach) (v : Issued) : (m.setIssued v).requests = m.requests := rfl
@[simp] theorem Mach.setIssued_nextRid (m : Mach) (v : Issued) : (m.setIssued v).nextRid = m.nextRid := rfl
@[simp] theorem Mach.setIssued_fcnt (m : Mach) (v : Issued) : (m.setIssued v).fcnt = m.fcnt := rfl
@[simp] theorem Mach.setIssued_pair (m : Mach) (v : Issued) : (m.setIssued v).pair = m.pair := rfl
@[simp] theorem Mach.setIssued_elog (m : Mach) (v : Issued) : (m.setIssued v).elog = m.elog := rfl
@[simp] theorem Mach.setIssued_keys (m : Mach) (v : Issued) : (m.setIssued v).keys = m.keys := rfl
@[simp] theorem Mach.setIssued_routeNoted (m : Mach) (v : Issued) : (m.setIssued v).routeNoted = m.routeNoted := rfl
@[simp] theorem Mach.setIssued_unplugged (m : Mach) (v : Issued) : (m.setIssued v).unplugged = m.unplugged := rfl
@[simp] theorem Mach.setIssued_fecTimes (m : Mach) (v : Issued) : (m.setIssued v).fecTimes = m.fecTimes := rfl
@[simp] theorem Mach.setIssued_hdmError (m : Mach) (v : Issued) : (m.setIssued v).hdmError = m.hdmError := rfl
@[simp] theorem Mach.setIssued_accessed (m : Mach) (v : Issued) : (m.setIssued v).accessed = m.accessed := rfl
@[simp] theorem Mach.setIssued_ucieSlow (m : Mach) (v : Issued) : (m.setIssued v).ucieSlow = m.ucieSlow := rfl
@[simp] theorem Mach.setIssued_switch (m : Mach) (v : Issued) : (m.setIssued v).switch = m.switch := rfl
@[simp] theorem Mach.setIssued_selfCheck (m : Mach) (v : Issued) : (m.setIssued v).selfCheck = m.selfCheck := rfl
@[simp] theorem Mach.setIssued_power (m : Mach) (v : Issued) : (m.setIssued v).power = m.power := rfl
@[simp] theorem Mach.setIssued_trust (m : Mach) (v : Issued) : (m.setIssued v).trust = m.trust := rfl
@[simp] theorem Mach.setIssued_resets (m : Mach) (v : Issued) : (m.setIssued v).resets = m.resets := rfl
@[simp] theorem Mach.setIssued_out (m : Mach) (v : Issued) : (m.setIssued v).out = m.out := rfl
@[simp] theorem Mach.core_setIssued (m : Mach) (v : Issued) (k : Nat) : (m.setIssued v).core k = m.core k := rfl
@[simp] theorem Mach.map_setIssued (m : Mach) (v : Issued) (k : Nat) : (m.setIssued v).map k = m.map k := rfl
@[simp] theorem Mach.stack_setIssued (m : Mach) (v : Issued) (k : Nat) : (m.setIssued v).stack k = m.stack k := rfl
@[simp] theorem Mach.bank_setIssued (m : Mach) (v : Issued) (a k : Nat) : (m.setIssued v).bank a k = m.bank a k := rfl
@[simp] theorem Mach.mon_setIssued (m : Mach) (v : Issued) (k : Nat) : (m.setIssued v).mon k = m.mon k := rfl
@[simp] theorem Mach.sess_setIssued (m : Mach) (v : Issued) (k : Nat) : (m.setIssued v).sess k = m.sess k := rfl
@[simp] theorem Mach.desc_setIssued (m : Mach) (v : Issued) (a k : Nat) : (m.setIssued v).desc a k = m.desc a k := rfl
@[simp] theorem Mach.dom_setIssued (m : Mach) (v : Issued) (k : Nat) : (m.setIssued v).dom k = m.dom k := rfl

/-! ## Sparse maps -/

section Maps
variable {κ β : Type} [DecidableEq κ]

theorem look_erase_same (d : κ → β) (k : κ) (l : List (κ × β)) : look d k (erase k l) = d k := by
  induction l with
  | nil => rfl
  | cons e rest ih =>
    obtain ⟨k', v⟩ := e
    simp only [erase]
    split
    · exact ih
    · next h => simp only [look, if_neg h, ih]

theorem look_erase_other (d : κ → β) {k k' : κ} (h : k' ≠ k) (l : List (κ × β)) : look d k' (erase k l) = look d k' l := by
  induction l with
  | nil => rfl
  | cons e rest ih =>
    obtain ⟨q, v⟩ := e
    simp only [erase]
    split
    · next hq => subst hq; simp only [look, if_neg h, ih]
    · simp only [look, ih]

theorem look_put_same (before : κ → κ → Bool) (d : κ → β) (k : κ) (v : β) (l : List (κ × β)) : look d k (put before k v l) = v := by
  induction l with
  | nil => simp [put, look]
  | cons e rest ih =>
    obtain ⟨q, w⟩ := e
    simp only [put]
    split
    · simp [look]
    · split
      · simp [look]
      · next h _ => simp only [look, if_neg h, ih]

theorem look_put_other (before : κ → κ → Bool) (d : κ → β) {k k' : κ} (h : k' ≠ k) (v : β) (l : List (κ × β)) :
    look d k' (put before k v l) = look d k' l := by
  induction l with
  | nil => simp [put, look, h]
  | cons e rest ih =>
    obtain ⟨q, w⟩ := e
    simp only [put]
    split
    · next hq => subst hq; simp [look, h]
    · split
      · simp [look, h]
      · simp only [look, ih]

variable [DecidableEq β]

/-- A read after a write of the same key gives the value written. -/
@[simp] theorem look_store_same (before : κ → κ → Bool) (d : κ → β) (k : κ) (v : β) (l : List (κ × β)) : look d k (store before d k v l) = v := by
  unfold store
  split
  · next h => rw [look_erase_same, h]
  · exact look_put_same before d k v l

/-- A write leaves every other key alone. -/
theorem look_store_other (before : κ → κ → Bool) (d : κ → β) {k k' : κ} (h : k' ≠ k) (v : β) (l : List (κ × β)) :
    look d k' (store before d k v l) = look d k' l := by
  unfold store
  split
  · exact look_erase_other d h l
  · exact look_put_other before d h v l

end Maps

@[simp] theorem nget_nset_same {β : Type} [DecidableEq β] (d : Nat → β) (l : List (Nat × β)) (k : Nat) (v : β) : nget d (nset d l k v) k = v :=
  look_store_same natBefore d k v l

theorem nget_nset_other {β : Type} [DecidableEq β] (d : Nat → β) (l : List (Nat × β)) {k k' : Nat} (h : k' ≠ k) (v : β) :
    nget d (nset d l k v) k' = nget d l k' := look_store_other natBefore d h v l

/-! ## Registers and tables: a read after a write -/

/-- A field reads what was written, cut to its width. -/
@[simp] theorem Mach.rd_wr_same (m : Mach) (f : Fld) (v i j : Nat) : (m.wr f v i j).rd f i j = trunc f.width v := by
  simp [Mach.rd, Mach.wr]

/-- A write of a field leaves every other one. -/
theorem Mach.rd_wr_other (m : Mach) {f g : Fld} {v i j i' j' : Nat} (h : g ≠ f ∨ i' ≠ i ∨ j' ≠ j) : (m.wr f v i j).rd g i' j' = m.rd g i' j' := by
  refine look_store_other _ _ ?_ _ _
  intro e
  injection e with e1 e2 e3
  rcases h with h | h | h
  · exact h e1
  · exact h e2
  · exact h e3

/-- A write of a field leaves every field of another name. -/
@[simp] theorem Mach.rd_wr_fld (m : Mach) {f g : Fld} (h : g ≠ f) (v i j i' j' : Nat) : (m.wr f v i j).rd g i' j' = m.rd g i' j' :=
  Mach.rd_wr_other m (Or.inl h)

@[simp] theorem Mach.core_setCore_same (m : Mach) (n : Nat) (c : Core) : (m.setCore n c).core n = c := nget_nset_same _ _ _ _
theorem Mach.core_setCore_other (m : Mach) {n k : Nat} (h : k ≠ n) (c : Core) : (m.setCore n c).core k = m.core k := nget_nset_other _ _ h _
@[simp] theorem Mach.stack_setStack_same (m : Mach) (n : Nat) (v : Stack) : (m.setStack n v).stack n = v := nget_nset_same _ _ _ _
theorem Mach.stack_setStack_other (m : Mach) {n k : Nat} (h : k ≠ n) (v : Stack) : (m.setStack n v).stack k = m.stack k := nget_nset_other _ _ h _
@[simp] theorem Mach.mon_setMon_same (m : Mach) (p : Nat) (v : Mon) : (m.setMon p v).mon p = v := nget_nset_same _ _ _ _
theorem Mach.mon_setMon_other (m : Mach) {p k : Nat} (h : k ≠ p) (v : Mon) : (m.setMon p v).mon k = m.mon k := nget_nset_other _ _ h _
@[simp] theorem Mach.sess_setSess_same (m : Mach) (i : Nat) (v : SEntry) : (m.setSess i v).sess i = v := nget_nset_same _ _ _ _
theorem Mach.sess_setSess_other (m : Mach) {i k : Nat} (h : k ≠ i) (v : SEntry) : (m.setSess i v).sess k = m.sess k := nget_nset_other _ _ h _
@[simp] theorem Mach.dom_setDom_same (m : Mach) (d : Nat) (v : Dom) : (m.setDom d v).dom d = v := nget_nset_same _ _ _ _
theorem Mach.dom_setDom_other (m : Mach) {d k : Nat} (h : k ≠ d) (v : Dom) : (m.setDom d v).dom k = m.dom k := nget_nset_other _ _ h _
@[simp] theorem Mach.bank_setBank_same (m : Mach) (n b : Nat) (v : Bank) : (m.setBank n b v).bank n b = v := nget_nset_same _ _ _ _

end Sys2Proof.Machine
end

