-- ==== Sys2Proof/Laws/Memory.lean ====
section
/-! SUPPORT. The canonical form of sparse maps is kept by every operation on them, and the bytes of the block keep it through every operation that writes memory. -/
namespace Sys2Proof.Machine

/-! ## The canonical form -/

/-- What the form says of a map with natural-number keys. -/
theorem canonical_iff {β : Type} [DecidableEq β] (d : Nat → β) (l : List (Nat × β)) :
    canonical natBefore d l = true ↔ l.Pairwise (fun a b => a.1 < b.1) ∧ ∀ e ∈ l, e.2 ≠ d e.1 := by
  induction l with
  | nil => simp [canonical]
  | cons e rest ih =>
    obtain ⟨k, v⟩ := e
    cases rest with
    | nil => simp [canonical]
    | cons e' rest' =>
      obtain ⟨k', v'⟩ := e'
      simp only [canonical, Bool.and_eq_true, decide_eq_true_eq, ih, natBefore]
      constructor
      · rintro ⟨⟨hv, hk⟩, hp, hd⟩
        refine ⟨List.pairwise_cons.2 ⟨?_, hp⟩, ?_⟩
        · intro x hx
          rcases List.mem_cons.1 hx with rfl | hx'
          · exact hk
          · exact Nat.lt_trans hk ((List.pairwise_cons.1 hp).1 x hx')
        · intro x hx
          rcases List.mem_cons.1 hx with rfl | hx'
          · exact hv
          · exact hd x hx'
      · rintro ⟨hp, hd⟩
        have hp' := List.pairwise_cons.1 hp
        exact ⟨⟨hd (k, v) (by simp), hp'.1 (k', v') (by simp)⟩, hp'.2, fun x hx => hd x (List.mem_cons_of_mem _ hx)⟩

theorem erase_eq_filter {β : Type} (k : Nat) (l : List (Nat × β)) : erase k l = l.filter (fun e => decide (e.1 ≠ k)) := by
  induction l with
  | nil => rfl
  | cons e rest ih =>
    obtain ⟨q, v⟩ := e
    simp only [erase, List.filter_cons]
    by_cases h : k = q
    · subst h; simpa using ih
    · simp [h, ih, Ne.symm h]

/-- Dropping entries keeps the form. -/
theorem canonical_filter {β : Type} [DecidableEq β] (d : Nat → β) (p : Nat × β → Bool) {l : List (Nat × β)} (h : canonical natBefore d l = true) :
    canonical natBefore d (l.filter p) = true := by
  rw [canonical_iff] at h ⊢
  exact ⟨h.1.filter _, fun e he => h.2 e (List.mem_filter.1 he).1⟩

theorem mem_put {β : Type} {k : Nat} {v : β} {l : List (Nat × β)} {e : Nat × β} (h : e ∈ put natBefore k v l) : e = (k, v) ∨ e ∈ l := by
  induction l with
  | nil => simpa [put] using h
  | cons x rest ih =>
    obtain ⟨q, w⟩ := x
    simp only [put] at h
    split at h
    · rcases List.mem_cons.1 h with h | h
      · exact .inl h
      · exact .inr (List.mem_cons_of_mem _ h)
    · split at h
      · rcases List.mem_cons.1 h with h | h
        · exact .inl h
        · exact .inr h
      · rcases List.mem_cons.1 h with h | h
        · exact .inr (by simp [h])
        · rcases ih h with h | h
          · exact .inl h
          · exact .inr (List.mem_cons_of_mem _ h)

theorem pairwise_put {β : Type} (k : Nat) (v : β) {l : List (Nat × β)} (h : l.Pairwise (fun a b => a.1 < b.1)) :
    (put natBefore k v l).Pairwise (fun a b => a.1 < b.1) := by
  induction l with
  | nil => simp [put]
  | cons x rest ih =>
    obtain ⟨q, w⟩ := x
    have hx := List.pairwise_cons.1 h
    simp only [put]
    split
    · next e => subst e; exact List.pairwise_cons.2 hx
    · next e =>
      split
      · next lt =>
        simp only [natBefore, decide_eq_true_eq] at lt
        refine List.pairwise_cons.2 ⟨?_, h⟩
        intro y hy
        rcases List.mem_cons.1 hy with rfl | hy
        · exact lt
        · exact Nat.lt_trans lt (hx.1 y hy)
      · next lt =>
        simp only [natBefore, decide_eq_true_eq] at lt
        refine List.pairwise_cons.2 ⟨?_, ih hx.2⟩
        intro y hy
        rcases mem_put hy with rfl | hy
        · show q < k
          omega
        · exact hx.1 y hy

/-- A write keeps the form. -/
theorem canonical_nset {β : Type} [DecidableEq β] (d : Nat → β) {l : List (Nat × β)} (h : canonical natBefore d l = true) (k : Nat) (v : β) :
    canonical natBefore d (nset d l k v) = true := by
  unfold nset store
  split
  · rw [erase_eq_filter]; exact canonical_filter d _ h
  · next hv =>
    rw [canonical_iff] at h ⊢
    refine ⟨pairwise_put k v h.1, ?_⟩
    intro e he
    rcases mem_put he with rfl | he
    · exact hv
    · exact h.2 e he

/-- What every step of a fold keeps, the fold keeps. -/
theorem foldl_keeps {α β : Type} (P : β → Prop) (f : β → α → β) (hf : ∀ b a, P b → P (f b a)) (l : List α) {b : β} (h : P b) : P (l.foldl f b) := by
  induction l generalizing b with
  | nil => exact h
  | cons a rest ih => exact ih (hf b a h)

/-! ## The bytes of the block -/

/-- The bytes of the block are in canonical form. -/
def Mach.memOk (m : Mach) : Prop := Memory.wf m.mem = true

theorem reset_memOk : State.reset.m.memOk := rfl

theorem Memory.wf_filter {l : List Host.Cell} (h : Memory.wf l = true) (p : Host.Cell → Bool) : Memory.wf (l.filter p) = true := canonical_filter _ p h

theorem Mach.memOk_of_eq {m m' : Mach} (e : m'.mem = m.mem) (h : m.memOk) : m'.memOk := by unfold Mach.memOk; rw [e]; exact h

@[simp] theorem Mach.inc_mem (m : Mach) (f : Fld) (d i j : Nat) : (m.inc f d i j).mem = m.mem := rfl
@[simp] theorem Mach.incMod_mem (m : Mach) (f : Fld) (d i j : Nat) : (m.incMod f d i j).mem = m.mem := rfl
@[simp] theorem Mach.setUnit_mem (m : Mach) (u : Nat) (v : CacheUnit) : (m.setUnit u v).mem = m.mem := rfl
@[simp] theorem Mach.dropUnit_mem (m : Mach) (u : Nat) : (m.dropUnit u).mem = m.mem := rfl

theorem Mach.memOk_writeCodeword {m : Mach} (h : m.memOk) (c : Nat) (bs : Bytes) : (m.writeCodeword c bs).1.memOk := by
  unfold Mach.writeCodeword
  split
  · exact h
  · dsimp only
    have k : Memory.wf ((List.range bs.length).foldl (fun l i => nset (fun _ => 0) l (c + i) (nthD bs i 0)) m.mem) = true :=
      foldl_keeps (fun l => Memory.wf l = true) _ (fun l i hl => canonical_nset _ hl _ _) _ h
    split <;> exact k

theorem Mach.memOk_markGranule {m : Mach} (h : m.memOk) (c n : Nat) : (m.markGranule c n).memOk := by
  unfold Mach.markGranule
  dsimp only
  split
  · exact h
  · split <;> exact h

theorem Mach.memOk_discardWrite {m : Mach} (h : m.memOk) (c : Nat) : (m.discardWrite c).memOk := h

theorem Mach.memOk_noteAccess {m : Mach} (h : m.memOk) (c : Nat) : (m.noteAccess c).memOk := by
  unfold Mach.noteAccess
  split <;> exact h

theorem Mach.memOk_writeArray {m : Mach} (h : m.memOk) (c : Nat) (bs : Bytes) : (m.writeArray c bs).1.memOk := by
  unfold Mach.writeArray
  split
  · exact h
  · dsimp only
    refine foldl_keeps (fun r : Mach × Bool => r.1.memOk) _ (fun r pc hr => ?_) _ ?_
    · exact Mach.memOk_writeCodeword hr _ _
    show Mach.memOk _
    split
    · exact foldl_keeps (fun m : Mach => m.memOk) _ (fun m s hm => Mach.memOk_markGranule hm _ _) _ (Mach.memOk_noteAccess h c)
    · exact h

theorem Mach.memOk_flushUnit {m : Mach} (h : m.memOk) (u : Nat) : (m.flushUnit u).1.memOk := by
  unfold Mach.flushUnit
  dsimp only
  split
  · dsimp only
    split <;> exact h
  · refine Mach.memOk_of_eq (Mach.dropUnit_mem _ _) ?_
    refine foldl_keeps (fun r : Mach × Bool => r.1.memOk) _ (fun r pc hr => ?_) _ h
    dsimp only
    split
    · exact Mach.memOk_writeArray hr _ _
    · exact Mach.memOk_writeArray hr _ _

/-- A trace record is staged: it writes no byte of the block. -/
@[simp] theorem Mach.trace_mem (m : Mach) (kind p queue opcode tag : Nat) (data : Bytes) : (m.trace kind p queue opcode tag data).mem = m.mem := by
  unfold Mach.trace
  split
  · split <;> rfl
  · rfl

@[simp] theorem Mach.setB_mem (m : Mach) (f : Fld) (k i j : Nat) : (m.setB f k i j).mem = m.mem := rfl
@[simp] theorem Mach.raiseEvent_mem (m : Mach) (p e : Nat) : (m.raiseEvent p e).mem = m.mem := rfl
@[simp] theorem Mach.faultInTest_mem (m : Mach) (c : Nat) : (m.faultInTest c).mem = m.mem := rfl

/-- A choice between two machines has the bytes that both have. -/
theorem Mach.mem_ite {c : Prop} [Decidable c] {a b m : Mach} (ha : a.mem = m.mem) (hb : b.mem = m.mem) : (if c then a else b).mem = m.mem := by split <;> assumption

/-- A fault record's fields write no byte of the block. -/
theorem Mach.record_mem (m : Mach) (lo hi t p : Nat) : ((((m.wr .FAULT_REC_LO lo p).wr .FAULT_REC_HI hi p).wr .FAULT_REC_FIRST t p).wr .FAULT_REC_LAST t p).mem = m.mem := by
  rw [Mach.wr_mem, Mach.wr_mem, Mach.wr_mem, Mach.wr_mem]

/-- A fault record writes no byte of the block. -/
theorem Mach.post_mem (m : Mach) (f : FaultIn) : (m.post f).mem = m.mem := by
  unfold Mach.post Mach.postBy
  refine (Mach.trace_mem ..).trans ((Mach.faultInTest_mem ..).trans (Mach.mem_ite ?_ (Mach.mem_ite ?_ ?_)))
  · exact (Mach.inc_mem ..).trans ((Mach.wr_mem ..).trans (Mach.wr_mem ..))
  · exact (Mach.raiseEvent_mem ..).trans ((Mach.setB_mem ..).trans (Mach.record_mem ..))
  · exact (Mach.setB_mem ..).trans (Mach.record_mem ..)

theorem Mach.memOk_evictUnit {m : Mach} (h : m.memOk) (u : Nat) : (m.evictUnit u).memOk := by
  unfold Mach.evictUnit
  dsimp only
  split
  · exact Mach.memOk_of_eq (Mach.post_mem _ _) (Mach.memOk_flushUnit h u)
  · exact Mach.memOk_flushUnit h u

theorem Mach.memOk_allocWay {m : Mach} (h : m.memOk) (p s : Nat) : (m.allocWay p s).2.memOk := by
  unfold Mach.allocWay
  dsimp only
  split
  · exact h
  · split
    · exact Mach.memOk_evictUnit (m := m.draw.2) h _
    · exact h

theorem Mach.memOk_writeUnit {m : Mach} (h : m.memOk) (p : Nat) (keep : Bool) (c : Nat) (bs : Bytes) : (m.writeUnit p keep c bs).1.memOk := by
  unfold Mach.writeUnit
  dsimp only
  split
  · exact Mach.memOk_markGranule h _ _
  · split
    · exact Mach.memOk_markGranule (Mach.memOk_allocWay h _ _) _ _
    · exact Mach.memOk_writeArray h _ _

theorem Mach.memOk_writeUnits {m : Mach} (h : m.memOk) (p : Nat) (keep : Bool) (c : Nat) (bs : Bytes) : (m.writeUnits p keep c bs).1.memOk := by
  unfold Mach.writeUnits
  split
  · exact Mach.memOk_discardWrite h _
  · refine foldl_keeps (fun r : Mach × Bool => r.1.memOk) _ (fun r pc hr => ?_) _ h
    exact Mach.memOk_writeUnit hr _ _ _ _

/-- A write's state, whatever an earlier write discarded. -/
theorem Mach.memOk_joined (b : Bool) (w : Mach × Bool) (h : w.1.memOk) : (let w := w; ((w.1, b || w.2) : Mach × Bool)).1.memOk := h

theorem Mach.memOk_writeLocal {m : Mach} (h : m.memOk) (p : Nat) (keep : Bool) (a : Nat) (bs : Bytes) : (m.writeLocal p keep a bs).1.memOk := by
  unfold Mach.writeLocal
  refine foldl_keeps (fun r : Mach × Bool => r.1.memOk) _ (fun r pc hr => ?_) _ h
  cases r.1.locOf pc.1 with
  | stack n b o => exact Mach.memOk_joined r.2 (r.1.writeUnits p keep (bankAddr n b o) pc.2) (Mach.memOk_writeUnits hr _ _ _ _)
  | core n off => exact Mach.memOk_joined r.2 (r.1.writeArray (coreAddr n off) pc.2) (Mach.memOk_writeArray hr _ _)
  | host h => exact hr
  | _ => exact hr

theorem Mach.memOk_farSeal {m : Mach} (h : m.memOk) (p s : Nat) (bs : Bytes) : (m.farSeal p s bs).memOk := by
  unfold Mach.farSeal
  dsimp only
  refine Mach.memOk_writeLocal ?_ _ _ _ _
  exact h

theorem Mach.memOk_writeFar {m : Mach} (h : m.memOk) (p a : Nat) (bs : Bytes) : (m.writeFar p a bs).1.memOk := by
  unfold Mach.writeFar
  refine foldl_keeps (fun r : Mach × Bool => r.1.memOk) _ (fun r pc hr => ?_) _ h
  dsimp only
  split
  · exact Mach.memOk_farSeal hr _ _ _
  · split
    · split
      · exact Mach.memOk_farSeal (m := r.1.inc .FARCXL_TRAFFIC_RMW) hr _ _ _
      · exact hr
    · exact hr

/-- A write at any local address keeps the form. -/
theorem Mach.memOk_write {m : Mach} (h : m.memOk) (p : Nat) (keep : Bool) (a : Nat) (bs : Bytes) : (m.write p keep a bs).1.memOk := by
  unfold Mach.write
  split
  · exact Mach.memOk_writeFar h _ _ _
  · exact Mach.memOk_writeLocal h _ _ _ _

theorem Mach.memOk_writeDram {m : Mach} (h : m.memOk) (a : Nat) (bs : Bytes) : (m.writeDram a bs).1.memOk := by
  unfold Mach.writeDram
  refine foldl_keeps (fun r : Mach × Bool => r.1.memOk) _ (fun r pc hr => ?_) _ h
  dsimp only
  split
  · exact Mach.memOk_writeArray hr _ _
  · exact hr

theorem Mach.memOk_clearGranules {m : Mach} (h : m.memOk) (s b n : Nat) : (m.clearGranules s b n).memOk :=
  Memory.wf_filter h _

theorem Mach.memOk_clearWhere {m : Mach} (h : m.memOk) (sel : Nat → Bool) : (m.clearWhere sel).memOk := by
  unfold Mach.clearWhere
  dsimp only
  refine foldl_keeps (fun x : Mach => x.memOk) _ (fun x n hx => ?_) _ ?_
  · exact hx
  · exact Memory.wf_filter h _

theorem Mach.memOk_forgetNow {m : Mach} (h : m.memOk) (s b n : Nat) : (m.forgetNow s b n).memOk :=
  Mach.memOk_clearGranules (m := m.invalidateGranules s b n) h s b n

theorem Mach.memOk_wipeCore {m : Mach} (h : m.memOk) (n : Nat) : (m.wipeCore n).memOk := Memory.wf_filter h _

theorem Mach.memOk_loseCores {m : Mach} (h : m.memOk) : m.loseCores.memOk := Memory.wf_filter h _

theorem Mach.memOk_warmed {m : Mach} (h : m.memOk) : m.warmed.memOk := Memory.wf_filter h _

theorem Mach.memOk_cleared (m : Mach) : m.cleared.memOk := rfl

theorem Mach.memOk_restoreCore {m : Mach} (h : m.memOk) (b l : Nat) : (m.restoreCore b l).memOk := by
  unfold Mach.restoreCore
  split
  · exact h
  · dsimp only
    split
    · exact Mach.memOk_wipeCore h _
    · exact foldl_keeps (fun l => Memory.wf l = true) _ (fun l i hl => canonical_nset _ hl _ _) _ (Mach.memOk_wipeCore h _)

theorem Mach.memOk_landUnit {m : Mach} (h : m.memOk) (p c : Nat) (bs : Bytes) : (m.landUnit p c bs).memOk := by
  unfold Mach.landUnit
  split
  · exact Mach.memOk_flushUnit (Mach.memOk_writeUnit h _ _ _ _) _
  · exact Mach.memOk_writeArray (m := m.dropUnit _) h _ _

theorem Mach.memOk_landBytes {m : Mach} (h : m.memOk) (p a : Nat) (bs : Bytes) : (m.landBytes p a bs).memOk := by
  unfold Mach.landBytes
  refine foldl_keeps (fun x : Mach => x.memOk) _ (fun x pc hx => ?_) _ h
  split
  · split
    · exact Mach.memOk_discardWrite hx _
    · exact foldl_keeps (fun x : Mach => x.memOk) _ (fun x u hx => Mach.memOk_landUnit hx _ _ _) _ hx
  · exact Mach.memOk_write hx _ _ _ _

end Sys2Proof.Machine
end

