-- ==== Sys2Proof/Laws/Ops.lean ====
section
/-! SUPPORT. What the shared operations do when their turn has come: guards, register accesses, slots of a bundle, commands of a queue, frames that arrive. -/
namespace Sys2Proof.Machine

theorem act_awake (f : Mach → Mach) {m : Mach} (h : m.awake = true) : act f m = f m := by simp [act, h]

theorem act_asleep (f : Mach → Mach) {m : Mach} (h : m.awake = false) : act f m = m := by simp [act, h]

theorem State.run_true (f : Mach → Mach) (s : State) {ok : Bool} (h : ok = true) : State.run ok f s = .next (s.onMach f) := by simp [State.run, h]

theorem State.run_act {ok : Bool} (f : Mach → Mach) {s : State} (h : ok = true) (ha : s.m.awake = true) : State.run ok (act f) s = .next (s.onMach f) := by
  simp [State.run, h, State.onMach, act, ha]

theorem State.does_act (f : Mach → Mach) {s : State} (ha : s.m.awake = true) : State.does (act f) s = .next (s.onMach f) := by
  simp [State.does, State.onMach, act, ha]

/-- An answered access by whoever may. -/
theorem Mach.access_served {m : Mach} {who : Requester} (i : Instr) {g : Mach → Bool} (f : Mach → Mach) (hg : g m = true)
    (h : m.answers who = true) : m.access who i g f = f m := by
  cases who <;> simp_all [Mach.access, Mach.answers, Mach.hostRequest]

/-- A write that is served. -/
theorem Mach.accessAt_served {m : Mach} {who : Requester} (i : Instr) {off : Nat} (f : Mach → Mach) (h : m.serves who off = true) :
    m.accessAt who i off f = f m := by
  cases who <;> simp_all [Mach.accessAt, Mach.access, Mach.serves, Mach.answers, Mach.hostRequest]

/-- A host request that is answered. -/
theorem Mach.hostRequest_answered {m : Mach} (i : Instr) (f : Mach → Mach) (h : m.answers .host = true) : m.hostRequest i f = f m := by
  simp_all [Mach.hostRequest, Mach.answers]

/-- An operation of a bundle acts when its slot's turn has come. -/
theorem Mach.slotRow_ready {m : Mach} {n k w : Nat} (op : Nat) (f : Nat → Mach → Act) (h : m.slotReady n k w = true) (ho : w % 256 = op) :
    m.slotRow n k op f = (match f w (m.begun n) with
      | .done m' => m'.endSlot n k
      | .wait => (m.begun n).stallCycle n
      | .hold m' => m'
      | .trap kind => (m.begun n).trapBundle n kind
      | .trapUe a len => ((m.begun n).noteRead false a len).trapBundle n fkDataUe) := by
  simp only [Mach.slotReady, Mach.atSlot, Bool.and_eq_true, beq_iff_eq, decide_eq_true_eq, Bool.not_eq_true'] at h
  obtain ⟨⟨⟨⟨⟨⟨⟨⟨_, _⟩, hr⟩, hs⟩, hc⟩, hf⟩, hn⟩, hw⟩, hl⟩ := h
  simp only [Mach.slotRow, Mach.fetch, hr, hs, hc, hf, hn, hw, hl, ho, Bool.not_true, Bool.false_or, Bool.false_eq_true, if_false, if_true, and_self]
  all_goals cases f w (m.begun n) <;> rfl

/-- An illegal operation traps, whatever row of its slot asks. -/
theorem Mach.slotRow_illegal {m : Mach} {n j w : Nat} (k op : Nat) (f : Nat → Mach → Act) (h : m.atSlot n j w = true) (hl : slotIllegal j w = true) :
    m.slotRow n k op f = (m.begun n).trapBundle n fkIllegal := by
  simp only [Mach.atSlot, Bool.and_eq_true, beq_iff_eq, decide_eq_true_eq, Bool.not_eq_true'] at h
  obtain ⟨⟨⟨⟨⟨⟨⟨_, _⟩, hr⟩, hs⟩, hc⟩, hf⟩, hn⟩, hw⟩ := h
  simp [Mach.slotRow, Mach.fetch, hr, hs, hc, hf, hn, hw, hl]

theorem Mach.slotReady_awake {m : Mach} {n k w : Nat} (h : m.slotReady n k w = true) : m.awake = true ∧ n < 192 := by
  simp only [Mach.slotReady, Mach.atSlot, Bool.and_eq_true, decide_eq_true_eq] at h
  exact ⟨h.1.1.1.1.1.1.1.1, h.1.1.1.1.1.1.1.2⟩

theorem Mach.atSlot_awake {m : Mach} {n k w : Nat} (h : m.atSlot n k w = true) : m.awake = true ∧ n < 192 := by
  simp only [Mach.atSlot, Bool.and_eq_true, decide_eq_true_eq] at h
  exact ⟨h.1.1.1.1.1.1.1, h.1.1.1.1.1.1.2⟩

/-- A command of the sequencer's own runs at its issue. -/
theorem commandRow_sequencer {m : Mach} {p q : Nat} {raw c : Cmd} (form : Cmd → Bool) (h : m.commandReady p q raw c = true) (hf : form c = true)
    (ho : isSeqOp c.opcode = true) :
    commandRow form p q raw m =
      (((m.joined p q c).seqOpRun p q c).1.setIssued
        { m.joining p q c with result := some ((m.joined p q c).seqOpRun p q c).2.1, progress := ((m.joined p q c).seqOpRun p q c).2.2 }).completeNew (m.joining p q c) := by
  simp only [Mach.commandReady, Bool.and_eq_true, beq_iff_eq, decide_eq_true_eq, Option.isNone_iff_eq_none] at h
  obtain ⟨⟨⟨_, hr⟩, hi⟩, hc⟩ := h
  simp only [commandRow, hr, hf, hi, Bool.not_true, Bool.false_eq_true, if_false, if_true, Mach.issue, hc, ho, Nat.or_zero, Mach.joined, Mach.joining]

/-- An engine's command starts the domains it needs, and its engine when it is the oldest of its queue. -/
theorem commandRow_engine {m : Mach} {p q : Nat} {raw c : Cmd} (form : Cmd → Bool) (h : m.commandReady p q raw c = true) (hf : form c = true)
    (ho : isSeqOp c.opcode = false) :
    commandRow form p q raw m = ((m.joined p q c).demand ((m.joined p q c).needs p q c)).startNext p q := by
  simp only [Mach.commandReady, Bool.and_eq_true, beq_iff_eq, decide_eq_true_eq, Option.isNone_iff_eq_none] at h
  obtain ⟨⟨⟨_, hr⟩, hi⟩, hc⟩ := h
  simp only [commandRow, hr, hf, hi, Bool.not_true, Bool.false_eq_true, if_false, if_true, Mach.issue, hc, ho, Nat.or_zero, Mach.joined, Mach.joining]

theorem commandReady_bounds {m : Mach} {p q : Nat} {raw c : Cmd} (h : m.commandReady p q raw c = true) : p < 16 ∧ q < 20 := by
  simp only [Mach.commandReady, Bool.and_eq_true, decide_eq_true_eq] at h
  exact h.1.1.1

/-- A routed frame that ends at this block acts with its opened data, or is counted as failing its tag. -/
theorem Mach.arrive_ends {m : Mach} {n : Nat} {f : Frame} (land : Frame → Bytes → Mach → Mach) (h : m.reaches n f = true) :
    m.arrive n f land = (match (m.counted n).openFrame { f with ret := retWith f n } with
      | some data => land { f with ret := retWith f n } data ((m.counted n).hearFrame { f with ret := retWith f n })
      | none => (m.counted n).authFail n) := by
  simp only [Mach.reaches, Mach.hears, Bool.and_eq_true, Bool.not_eq_true', beq_iff_eq, decide_eq_true_eq] at h
  obtain ⟨⟨⟨⟨⟨⟨hc, hu⟩, hs⟩, hh⟩, hd⟩, hf⟩, hx⟩ := h
  have hx' : ¬ (f.typ = 0x10 ∧ f.keyslot = 0 ∧ f.addr = spdmAddr ∧ f.dstPart = 0) := by simpa [and_assoc] using hx
  have hl : ¬ f.hidx < routeHops f.route := by omega
  simp only [Mach.counted] at hs hd hf
  simp only [Mach.arrive, hc, hu, hs, hl, hd, hf, hx', Bool.not_true, Bool.or_self, Bool.false_eq_true, if_false, ne_eq, not_true_eq_false, Mach.counted]
  all_goals rfl

/-- A hop-level frame that is heard acts once counted. -/
theorem Mach.arriveHop_heard {m : Mach} {n : Nat} (k : Mach → Mach) (h : m.hears n = true) : m.arriveHop n k = k (m.counted n) := by
  simp only [Mach.hears, Bool.and_eq_true, Bool.not_eq_true'] at h
  simp [Mach.arriveHop, h.1, h.2, Mach.counted]

/-! The lane-wise operations, one lemma each. -/
theorem laneOp_add (ty a b c : Nat) : laneOp 1 ty a b c = if ty = 2 then (a + b) % 2 ^ 32 else rneType ty ((laneVal ty a).add (laneVal ty b)) := rfl
theorem laneOp_sub (ty a b c : Nat) : laneOp 2 ty a b c = if ty = 2 then (a + (2 ^ 32 - b % 2 ^ 32)) % 2 ^ 32 else rneType ty ((laneVal ty a).add (laneVal ty b).neg) := rfl
theorem laneOp_mul (ty a b c : Nat) : laneOp 3 ty a b c = if ty = 2 then a * b % 2 ^ 32 else rneType ty ((laneVal ty a).mul (laneVal ty b)) := rfl
theorem laneOp_fma (ty a b c : Nat) : laneOp 4 ty a b c = if ty = 2 then (a * b + c) % 2 ^ 32 else rneType ty (((laneVal ty a).mul (laneVal ty b)).add (laneVal ty c)) := rfl
theorem laneOp_max (ty a b c : Nat) : laneOp 5 ty a b c = if ty = 2 then (if i32 a < i32 b then b else a) else rneType ty (fmax (laneVal ty a) (laneVal ty b)) := rfl
theorem laneOp_min (ty a b c : Nat) : laneOp 6 ty a b c = if ty = 2 then (if i32 a < i32 b then a else b) else rneType ty (fmin (laneVal ty a) (laneVal ty b)) := rfl

end Sys2Proof.Machine
end

