-- ==== Sys2Proof/Tests/Slice0.lean ====
section
/-! SUPPORT. Tests: ill-formed commands that WellFormed refuses; for every obligation that has hypotheses, concrete states and operands that meet them, clause by clause; and a few steps whose results the spec gives.
Some hypotheses turn on a free value (a signature that holds, a hash, a key): no concrete input can be shown for those, and the witness leaves them out, naming them. -/
namespace Sys2Proof.Tests
set_option Elab.async false
open Sys2Proof.Machine

/-! ## Ill-formed commands -/

/-- A command that fits. -/
def c0 : Cmd := ⟨0, 0, 0, 0, 0, 0, 0, 0, 0, 0, 0, 0, 0⟩
/-- A frame that fits. -/
def f0 : Frame := ⟨0x10, 0, 0, 0, 0, 0, 0, false, false, 0, 0, 0, 0, 0, 0, 0, 0, 0, [], []⟩

/-- Registers and partitions: a width that no request has, a value wider than the access, a partition, queue, domain or event beyond the last. -/
theorem test_wf_registers : [Instr.registerWrite .fw 0 24 0, .registerWrite .host 0 32 (2 ^ 32), .registerReadClear .fw 0 128, .timeRoleWrite .fw 4, .stepDeadlineMiss 16,
    .commandCompletion 16 0, .commandCompletion 0 20, .domainReady 257, .qctlResume .fw 16 0, .qctlEnable .fw 0 20 1, .qctlEnable .fw 0 0 2, .evraise .fw 16 0, .evraise .fw 0 256,
    .descriptorCreate .fw 16, .descriptorValidationDone 16, .descriptorDestroy .fw 16 0, .descriptorDrainDone 16 0, .descriptorDrainDone 0 4096, .secAllocWrite .fw 16 0 false 0,
    .secAllocWrite .fw 0 256 true 0, .partitionEnable .fw 16 1, .partitionEnable .fw 0 2, .partitionSwitchGo .fw 16 0, .partitionSwitchGo .fw 0 16].all (fun i => !i.wf) = true := by decide

/-- Commands of the queues: a partition or queue beyond the last, or a field wider than R82 gives it. -/
theorem test_wf_commands : [Instr.nop 16 0 c0, .kernel 0 20 c0, .stack 0 0 { c0 with opcode := 256 }, .copy 0 0 { c0 with engine := 16 }, .copyFill 0 0 { c0 with part := 16 },
    .copyAmo 0 0 { c0 with flags := 2 ^ 16 }, .remoteWrite 0 0 { c0 with tag := 2 ^ 32 }, .remoteRead 0 0 { c0 with issue := 2 ^ 48 }, .seal 0 0 { c0 with deadline := 2 ^ 48 },
    .wait 0 0 { c0 with psel := 2 ^ 32 }, .patch 0 0 { c0 with p0 := 2 ^ 64 }, .mark 0 0 { c0 with p1 := 2 ^ 64 }, .jump 0 0 { c0 with p2 := 2 ^ 64 }, .flush 0 0 { c0 with p3 := 2 ^ 64 },
    .sample 0 0 { c0 with p4 := 2 ^ 64 }, .powerStart 16 0 c0, .powerStop 0 20 c0, .build 16 0 c0, .emit 0 20 c0, .seqAdmit 16 0 c0, .activate 16 0 c0, .hold 16 0 c0, .release 16 0 c0,
    .park 16 0 c0, .retire 16 0 c0, .free 16 0 c0, .pend 16 0 c0, .shed 16 0 c0, .setdl 0 20 c0, .pageAllocate 16 0 c0, .pageFree 16 0 c0, .pageForget 0 20 c0].all
    (fun i => !i.wf) = true := by decide

/-- Stacks: a stack, bank, quadrant or row beyond the last. -/
theorem test_wf_stacks : [Instr.attendItem 12, .pgemvItem 12, .appendItem 12, .itemBankTake 12, .recordArrival 12, .bankServicePeriod 12 0, .bankServicePeriod 0 512, .bankYieldPoint 12 0,
    .bankYieldPoint 0 512, .refreshSlot 12 0, .refreshSlot 0 4, .refreshCalendarChange 12 true, .stackThrottleOnset 12, .stackThrottleClear 12, .stackForgetGo .fw 12 0 1, .forgetDone 12,
    .poolAddGo .fw 16 0 0 1, .poolAddGo .fw 0 12 0 1, .poolAddDone 16 0, .poolAddDone 0 12, .retireRow .fw 12 0 0, .retireRow .fw 0 512 0, .retireRow .fw 0 0 32768, .retireBank .fw 12 0,
    .retireBank .fw 0 512, .retireStack .fw 12, .dramTrip 12].all (fun i => !i.wf) = true := by decide

/-- Cores: a core, queue, group or partition beyond the last. -/
theorem test_wf_cores : [Instr.scAdd 192, .scAddi 192, .scSub 192, .scMul 192, .scAnd 192, .scOr 192, .scXor 192, .scShl 192, .scShr 192, .scSar 192, .scLi 192, .scLdc 192, .scCmplt 192,
    .scCmpeq 192, .scBr 192, .scBz 192, .scBnz 192, .scLoop 192, .scQcfg 192, .scQrew 192, .scMyid 192, .scPeer 192, .scSetprog 192, .scIfill 192, .scMxfmt 192, .scAmo 192,
    .amoComplete 192, .vxAdd 192, .vxSub 192, .vxMul 192, .vxFma 192, .vxMax 192, .vxMin 192, .vxExp 192, .vxRcp 192, .vxRsqrt 192, .vxRsum 192, .vxRmax 192, .vxGather 192, .vxCvt 192,
    .vxScal 192, .vxBcast 192, .vxCmp 192, .vxSel 192, .vectorTokenSet 192, .mxMma 192, .mmaComplete 192, .mxDrain 192, .drainStart 192 .pass, .drainRowPush 192, .ldTile 192,
    .loadEntryReady 192 0, .loadEntryReady 0 32, .stTile 192, .storeComplete 192, .syAwait 192, .sySpace 192, .syStw 192, .syLdw 192, .syMx 192, .syDr 192, .syIfill 192, .syBar 192,
    .barrierRelease 16 0, .barrierRelease 0 4, .syCyc 192, .sySwpt 192, .syEnd 192, .syIdle 192, .syAmo 192, .groupStop 16 0, .groupStop 0 4, .watchdogExpiry 192, .ifillGo .fw 192 0 0 1,
    .ifillDone 192, .coreRetire .fw 192, .switchDrainForce 192, .scalarResultWrite 192].all (fun i => !i.wf) = true := by decide

/-- Links: a port, block, distance, mask or transfer beyond the last, data that is no two units, a header that does not fit. -/
theorem test_wf_links : [Instr.writeFrame 16 f0, .sealFrame 0 { f0 with typ := 256 }, .readreqFrame 0 { f0 with dstBlock := 1024 }, .readrepFrame 0 { f0 with dstPart := 16 },
    .atomreqFrame 0 { f0 with len := 65 }, .atomrepFrame 16 f0, .sealHoldExpiry 1024 0 0, .sealHoldExpiry 0 16 0, .sealHoldExpiry 0 0 65536, .transferCloseExpiry 1024 0 0,
    .transferCloseExpiry 0 16 0, .transferCloseExpiry 0 0 65536, .replyLimitExpiry 16 0, .replyLimitExpiry 0 20, .unknownFrame 16, .trainFrame 16 true, .syncFrame 16 0 0 0 0,
    .syncFrame 0 1024 0 0 0, .syncFrame 0 0 64 0 0, .stopFrame 16 0 0, .stopFrame 0 1024 0, .stopFrame 0 0 65536, .startFrame 16 0 0, .startFrame 0 1024 0, .startFrame 0 0 65536,
    .digestFrame 16 { f0 with len := 2 }, .digestFrame 0 f0, .checkFrame 16 { f0 with len := 1 }, .fenceFrame (16, f0), .outputPortSend 16, .linkSignalLoss 16, .linkFecFail 16 none,
    .linkFecFail 0 (some { f0 with srcBlock := 1024 }), .linkRetrainTimer 16, .linkRetrain .fw 16, .linkTrainingDone 16 .fail, .plugRemoval 16, .plugInsertion 16].all
    (fun i => !i.wf) = true := by decide

/-- The host port, faults, trust, power and reset: a module, expander, partition, zone, rail, transport or part beyond the last, a field too wide. -/
theorem test_wf_rest : [Instr.ucieModuleFail 4, .mailboxWrite [], .mailboxUnsupported 65536, .doeDiscovery 256, .farPortEnable .fw 2, .farLinkDown 4 [], .mcLockstepMismatch 2, .seamCrcError 2,
    .faultAck .fw 16, .faultStopClear .fw 65536, .selfCheckDone [.core 192], .diagTest [.stack 12], .startupCheckerTest [.cache 2], .faultInjArm .fw (2 ^ 48) 0, .faultInjArm .fw 0 4,
    .firmwareBootGo .fw (2 ^ 23), .arbAdvance .fw 256, .optionStoreWrite .fw 65536 0, .optionStoreWrite .fw 0 65536, .getVersion (.link 16) [], .getCapabilities (.link 16) [],
    .negotiateAlgorithms (.link 16) [], .getDigests (.link 16) [], .getCertificate (.link 16) [], .challenge (.link 16) [], .getMeasurements (.link 16) [], .keyExchange (.link 16) [],
    .finish (.link 16) [], .endSession (.link 16) [], .vendorDefinedRequest (.link 16) [], .keyagree (.link 16) ⟨1, 0, 0, 0, 0, [], [], []⟩, .weightMeasureGo .fw 16, .weightMeasureDone 16, .partitionSeal .fw 16, .importGo .fw 16 0,
    .importDone 16, .powerStateRequest .fw 4, .thermNowRead .fw 24, .dieTrip 2, .railFail 6, .pllLockLoss 2, .coldResetAssert (.railLow 6), .partitionReset .fw 65536,
    .unitReset .fw 16 0, .unitReset .fw 0 256].all (fun i => !i.wf) = true := by decide

/-! ## States the witnesses start from -/

/-- The machine after reset. -/
def r0 : Mach := Mach.reset
/-- With the host's port up. -/
def up : Mach := r0.wr .UCIE_STAT_MODS 15
/-- With firmware running. -/
def fw : Mach := (up.wr .SEC_BOOT_STATE 2).wr .SEC_BOOT_STARTED 1
/-- In test mode. -/
def tm : Mach := fw.wr .RST_MODE_TEST 1
/-- Under cold reset. -/
def cold : Mach := { r0 with resets := { r0.resets with cold := true } }
/-- Under warm reset since time 0. -/
def warm : Mach := { r0 with resets := { r0.resets with warm := some 0 } }
/-- The same machine in a state. -/
def st (m : Mach) : State := ⟨⟨0, []⟩, m, []⟩

/-! ## Witnesses -/

theorem wit_StepTakesTheFrontCommand : State.reset.pending = [] := by decide

theorem wit_SentCommandsComplete :
    Instr.tickBoundary.wf = true ∧ undefinedPulse .tickBoundary = false ∧ (Instr.coldResetAssert (.mrst 2000)).wf = true ∧ undefinedPulse (.coldResetAssert (.mrst 2000)) = true ∧
    undefinedPulse (.coldResetAssert (.mrst 9999)) = true ∧ undefinedPulse (.coldResetAssert (.mrst 1999)) = false ∧ undefinedPulse (.coldResetAssert (.mrst 10000)) = false := by decide

/-- Fuses rise and the option store changes. -/
theorem wit_NonVolatileWriters :
    (match exec (.arbAdvance .fw 3) (st (fw.wr .SEC_BOOT_SVN 5)) with | .next t => t.nv.arb | _ => 0) = 3 ∧
    (match exec .optionStoreWriteDone (st { fw with trust := { fw.trust with optWrite := some ⟨0x100, [7]⟩ } }) with | .next t => t.nv.opt | _ => []) = [(0x100, 7)] := by decide +kernel

theorem wit_FusesOnlyRise : State.reset.fusesOk ∧ fw.serves .fw 0x00C00018 = true ∧ fw.answers .fw = true ∧ up.answers .host = true ∧
    (match exec (.arbAdvance .fw 9) (st (fw.wr .SEC_BOOT_SVN 5)) with | .next t => t.nv.arb | _ => 0) = 5 := by
  refine ⟨Nat.zero_le _, ?_⟩
  decide +kernel

theorem wit_CommandBytesSpellTheCommand : (Cmd.fits ⟨255, 15, 15, 65535, 2 ^ 32 - 1, 2 ^ 48 - 1, 2 ^ 48 - 1, 2 ^ 32 - 1, 2 ^ 64 - 1, 2 ^ 64 - 1, 2 ^ 64 - 1, 2 ^ 64 - 1, 2 ^ 64 - 1⟩) = true := by decide

theorem wit_ColdResetHoldsTheBlock : Instr.tickBoundary.wf = true ∧ cold.resets.cold = true ∧ actsUnderColdReset .tickBoundary = false := by decide

theorem wit_RegisterRowsWriteTheirField :
    fw.serves .fw 0x10 = true ∧ up.serves .host 0x10 = true ∧ fw.serves .fw 0x00100018 = true ∧ fw.answers .fw = true ∧
    fw.serves .fw (0x00200900 + 15 * 0x10000) = true ∧ fw.serves .fw (0x00200038 + 15 * 0x10000 + 19 * 0x40) = true ∧
    (fw.wr .SEQR_QCTL_ENABLE 1 15 19).flag .SEQR_QCTL_ENABLE 15 19 = true ∧
    fw.flag .SEQR_QCTL_ENABLE 15 19 = false ∧ (fw.wr .SEQR_QSIZE_LOG2 6 15 19).ringOk 15 19 = true ∧ (fw.wr .SEQR_QSIZE_LOG2 5 15 19).ringOk 15 19 = false := by decide +kernel

theorem wit_TimeRoleSetsTheState : fw.serves .fw 0x00100018 = true ∧ up.serves .host 0x00100018 = true ∧ (2 : Nat) < 3 := by decide +kernel

theorem wit_RegisterAccessesActOnTheirWord :
    fw.serves .fw 0x00100010 = true ∧ fw.serves .fw 0x01D00000 = true ∧ fw.serves .fw 0x10 = true ∧ (1023 : Nat) < 1024 ∧ fw.answers .fw = true ∧
    (fw.wr .GLOBAL_BLOCK_LOCK 1).flag .GLOBAL_BLOCK_LOCK = true := by decide +kernel

theorem wit_UnsupportedAccessesHaveNoEffect :
    ((16 : Nat) ≠ 32 ∧ (16 : Nat) ≠ 64) ∧ (4 : Nat) % (64 / 8) ≠ 0 ∧ (2 : Nat) % (32 / 8) ≠ 0 ∧ fw.serves .fw 0x10 = true ∧ fw.serves .fw 4 = true ∧ fw.answers .fw = true := by decide +kernel

theorem wit_TimeNowReadsAreConsistent :
    fw.answers .fw = true ∧ fw.time.latch .fw = none ∧ ({ fw with time := fw.time.setLatch .fw (some 7) } : Mach).time.latch .fw = some 7 ∧
    ({ fw with time := fw.time.setLatch .fw (some 7) } : Mach).answers .fw = true := by decide +kernel

/-- Partition 0 has an open step whose deadline is tick 1, at tick 2. -/
def late : Mach := ((({ fw with time := { fw.time with ns := 200 } } : Mach).wr .SEQR_STEP_OPEN 1 0).wr .SEQR_STEP_DEADLINE 1 0)
/-- Domain 256 has been started. -/
def starting : Mach := fw.setDom 256 ⟨1, false, 0, 0⟩

theorem wit_TicksMissesAndReadyDomains :
    fw.awake = true ∧ fw.time.loadReq = false ∧ warm.resets.cold = false ∧ warm.resets.warm ≠ none ∧ warm.time.loadReq = false ∧
    late.awake = true ∧ late.missDue 0 = true ∧ fw.missDue 0 = false ∧ (fw.setDom 3 ⟨1, false, 0, 20⟩).tick < ((fw.setDom 3 ⟨1, false, 0, 20⟩).dom 3).readyAt ∧ starting.awake = true ∧ (256 : Nat) < 257 ∧ (starting.dom 256).st = 1 := by decide +kernel

/-- Queue q of partition 0 enabled, with a ring of 64 slots and a command below its snapshot tail. -/
def qm (q : Nat) : Mach :=
  let m := (fw.wr .SEQR_QCTL_ENABLE 1 0 q).wr .SEQR_QSIZE_LOG2 6 0 q
  { m with sq := { m.sq with snapTail := [(q, 1)] } }
/-- A command of an opcode with parameters, for queue q. -/
def cmd (op q p1 p2 p3 p4 : Nat) : Cmd := { c0 with opcode := op, engine := engineOf q, p1 := p1, p2 := p2, p3 := p3, p4 := p4 }
/-- The command is next in its queue. -/
def ready (m : Mach) (q : Nat) (c : Cmd) : Bool := m.commandReady 0 q c c

theorem wit_SequencerCommandsAct :
    ready (qm 0) 0 (cmd 0 0 0 0 0 0) = true ∧ ready (qm 19) 19 (cmd 7 19 0 0 0 0) = true ∧
    ready (qm 1) 1 (cmd 8 1 0 0 0 0) = true ∧ ready (qm 1) 1 (cmd 8 1 64 5 0 0) = true ∧ ready (qm 1) 1 (cmd 8 1 128 5 0 0) = true ∧
    ready (qm 1) 1 (cmd 8 1 (192 + 256) 0 0 0) = true ∧ ready (qm 1) 1 (cmd 8 1 0 0 64 9) = true ∧ ready (qm 2) 2 (cmd 0xE 2 1 2 0 0) = true ∧
    ready (qm 3) 3 (cmd 0xF 3 65536 0 0 0) = true ∧ bit 65536 16 = true ∧ ((qm 3).joined 0 3 (cmd 0xF 3 65536 0 0 0)).rd .SEQR_PARAM_VALUE 0 0 = 0 ∧
    ready ((qm 3).wr .SEQR_PARAM_VALUE 2 0 0) 3 (cmd 0xF 3 65536 0 0 0) = true ∧
    (((qm 3).wr .SEQR_PARAM_VALUE 2 0 0).joined 0 3 (cmd 0xF 3 65536 0 0 0)).rd .SEQR_PARAM_VALUE 0 0 ≠ 0 ∧
    ready (qm 3) 3 (cmd 0xF 3 5 0 0 0) = true ∧ bit 5 16 = false := by decide +kernel

/-- A machine in which partition 0 owns all of stack 0, core 0 serves its group 0, port 0 is UP, test mode is entered, and the domains of core 0, stack 0 and port 0 run. -/
def rich (m : Mach) : Mach :=
  let m := (((m.wr .SEC_ALLOC_BASE bankBase 0 0).wr .SEC_ALLOC_LEN (2 ^ 35) 0 0).wr .SEC_ALLOC_READ 1 0 0).wr .SEC_ALLOC_WRITE 1 0 0
  let m := ((m.wr .SEC_PART_CG_CORES 1 0 0).wr .LINK_STATE_STATE 2 0).wr .RST_MODE_TEST 1
  [0, quadDom 0 0, quadDom 0 1, quadDom 0 2, quadDom 0 3, portDom 0].foldl (fun m d => m.setDom d ⟨2, false, 0, 0⟩) m
/-- Live descriptors 0 and 1 of partition 0: eight FP32 elements each, the second behind the first. -/
def descs (m : Mach) : Mach :=
  let w (off : Nat) : List Nat := [2 ^ 13 + 2 ^ 16, off, 0, 0, 1, 8 + 8 * 2 ^ 32]
  (m.setDesc 0 0 ⟨1, 1, w 0, []⟩).setDesc 0 1 ⟨1, 1, w 4096, []⟩
/-- Everything that a command of queue q could ask for. -/
def full (q : Nat) : Mach := descs (rich (qm q))

/-- The command starts on its engine at once. -/
def starts (m : Mach) (q : Nat) (c : Cmd) : Bool :=
  let j := m.joined 0 q c
  let k := j.demand (j.needs 0 q c)
  m.commandReady 0 q c c && k.oldest 0 q == some (m.joining 0 q c) && k.powered (m.joining 0 q c) && k.resets.units.isEmpty && k.partRuns 0
/-- The command waits for a domain. -/
def waitsForDomain (m : Mach) (q : Nat) (c : Cmd) : Bool :=
  let j := m.joined 0 q c
  let k := j.demand (j.needs 0 q c)
  m.commandReady 0 q c c && k.oldest 0 q == some (m.joining 0 q c) && !k.powered (m.joining 0 q c)

theorem wit_EngineCommandsStart_kernel : starts (full 4) 4 (cmd 1 4 0 0 0 0) = true := by decide +kernel
theorem wit_EngineCommandsStart_stack : starts (full 8) 8 (cmd 2 8 bankBase bankBase 1 0) = true := by decide +kernel
theorem wit_EngineCommandsStart_copy :
    starts (full 2) 2 (cmd 3 2 (handleOf 0 0 1) (handleOf 0 1 1) 0 0) = true ∧ (cmd 3 2 (handleOf 0 0 1) (handleOf 0 1 1) 0 0).fill = false ∧
    starts (full 3) 3 (cmd 3 3 0 (handleOf 0 1 1) 2 7) = true ∧ (cmd 3 3 0 (handleOf 0 1 1) 2 7).fill = true ∧
    starts (full 2) 2 (cmd 3 2 (1023 * 2 ^ 48 + bankBase) 5 (64 + bankBase * 2 ^ 16) 0) = true ∧ (cmd 3 2 (1023 * 2 ^ 48 + bankBase) 5 (64 + bankBase * 2 ^ 16) 0).amo = true := by
  decide +kernel
theorem wit_EngineCommandsStart_remote :
    starts (full 1) 1 (cmd 5 1 bankBase (2 ^ 48) 32 1) = true ∧ remoteRead (cmd 5 1 bankBase (2 ^ 48) 32 1) = false ∧
    starts (full 1) 1 (cmd 5 1 bankBase (2 ^ 48) (32 + 2 ^ 40) 1) = true ∧ remoteRead (cmd 5 1 bankBase (2 ^ 48) (32 + 2 ^ 40) 1) = true ∧
    starts (full 1) 1 (cmd 6 1 (2 ^ 48) 0 0 1) = true := by decide +kernel
theorem wit_EngineCommandsStart_rest :
    starts (full 2) 2 (cmd 0xB 2 bankBase 64 0 0) = true ∧ starts (full 0) 0 (cmd 0xC 0 1 0 0 0) = true ∧ starts (full 0) 0 (cmd 0xD 0 1 1 0 0) = true ∧
    starts (full 0) 0 (cmd 0xD 0 2 1 0 0) = true ∧ starts ((full 0).wr .SEQR_WL_BASE bankBase 0) 0 (cmd 9 0 1 0 0 0) = true ∧ starts (full 0) 0 (cmd 9 0 2 0 0 0) = true ∧
    starts (full 8) 8 (cmd 0xA 8 1 bankBase 1 0) = true ∧ starts (full 8) 8 (cmd 0xA 8 2 bankBase 1 0) = true ∧ starts (full 8) 8 (cmd 0xA 8 3 bankBase 1 0) = true := by decide +kernel
theorem wit_EngineCommandsStart_waits :
    waitsForDomain ((full 4).setDom 0 Dom.stopped) 4 (cmd 1 4 0 0 0 0) = true ∧ waitsForDomain ((full 8).setDom (quadDom 0 3) Dom.stopped) 8 (cmd 2 8 bankBase bankBase 1 0) = true := by decide +kernel

theorem wit_SessionCommandsActOnTheirItems :
    ((List.range 10).map (· + 3)).all (fun op => starts (full 0) 0 (cmd 9 0 op bankBase 1 0)) = true := by decide +kernel

/-- Sessions 0 to 4 belong to partition 0, in the states 0 to 4; session 5 is retiring. -/
def sessions : Mach :=
  (List.range 6).foldl (fun m i => m.setSess i { SEntry.free with state := i }) ((fw.wr .SEC_PART_RANGE_FIRST 0 0).wr .SEC_PART_RANGE_COUNT 6 0)

theorem wit_SessionItemsChangeTheirEntry :
    sessions.inRange 0 6 = false ∧ (List.range 6).all (sessions.inRange 0) = true ∧
    ([(3, 0), (4, 1), (5, 2), (6, 3), (7, 2), (8, 2), (9, 5), (10, 2), (11, 2), (12, 2)].all (fun x => seqAllowed x.1 (sessions.sess x.2))) = true ∧
    ([3, 4, 5, 6, 7, 8, 9, 10, 11, 12].all (fun op => seqItemReservedOk op (List.replicate 64 0))) = true ∧ seqAllowed 3 (sessions.sess 1) = false ∧
    seqItemReservedOk 4 (List.replicate 64 1) = false := by decide +kernel

/-- The KERNEL of queue 4, issued. -/
def kern : Issued := ⟨0, 0, 4, 0, cmd 1 4 7 8 9 10, 0, 0, 0, false, none, 0, 0, false, [], 1, true, [], []⟩
/-- With that KERNEL issued. -/
def kernM : Mach := let m := rich (qm 4); { m with sq := { m.sq with issued := [kern], nextId := 1 } }

/-- Its group has a second core, whose physical core has been retired without a spare. -/
def coreless : Mach := (kernM.wr .SEC_PART_CG_CORES 3 0 0).setMap 1 ⟨2, 0xFF⟩

theorem wit_KernelStartsEveryCoreOfItsGroup :
    (kernM.groupPhys 0 0).all Option.isSome = true ∧ 0 ∈ kernM.kernelCores kern ∧ none ∈ coreless.groupPhys 0 0 := by decide +kernel

/-- The KERNEL has ended, and a second one waits behind it. -/
def ended : Mach := { kernM with sq := { kernM.sq with issued := [{ kern with result := some stOk }, { kern with id := 1, started := false }], nextId := 2 } }

/-- An EMIT of no sessions that is to serve its rings, alone in queue 0. -/
def emitEnds : Issued := { kern with queue := 0, cmd := cmd 9 0 2 0 0 0, result := some stOk, extra := [2] }
def emitM : Mach := { kernM with sq := { kernM.sq with issued := [emitEnds], nextId := 1 } }

theorem wit_CompletionRetiresTheOldestCommand :
    emitM.awake = true ∧ emitM.oldest 0 0 = some emitEnds ∧
    (let r := emitAll 0 0 0 0 true (emitM.mon 0).list 0 emitM
     let m := (r.2.1.foldl (fun m rec => m.sendRecord 0 rec) r.1).closeStep 0
     (m.complete { (m.issuedOf 0).getD emitEnds with result := some (itemsStatus r.2.2), progress := itemsDone r.2.2, itemSt := r.2.2.map some, items := 0, extra := [1] } (itemsStatus r.2.2)).oldest 0 0 = none) ∧
    ended.awake = true ∧ ended.oldest 0 4 = some { kern with result := some stOk } ∧ ((ended.complete { kern with result := some stOk } stOk).oldest 0 4).map (·.result) = some none ∧
    kernM.oldest 0 4 = some kern ∧ kern.result = none ∧ kernM.oldest 0 5 = none := by decide +kernel

/-- A work item on stack 0: kind 1 ATTEND, 2 PGEMV, 3 APPEND; its page list at bankBase names page 1 and, further on, page 8192. -/
def item (kind : Nat) : Item :=
  { id := 0, cmdId := 0, idx := 0, part := 0, stack := 0, desc := ⟨kind, false, 0, 0x3F800000, false, false, 2, false, 1⟩, fmt := ⟨1, 4, 4, 0, 64, 32, 512, 16⟩,
    inA := bankBase + 0x10000, session := 0, outA := bankBase + 0x20000, root := bankBase, len := if kind = 3 then 0 else 1, shed := 0, rows := 1, pages := [], page := 0, work := 0,
    phase := .waiting, failed := none, degraded := false, stopped := false, acc := [], asked := 0, inB := [], blank := false,
    popped := false, unheldPop := false }
/-- Session 0 active in partition 0, the page list in memory, and one item. -/
def withItem (it : Item) : Mach :=
  let m := ((rich fw).wr .SEC_PART_RANGE_COUNT 1 0).setSess 0 { SEntry.free with state := 2 }
  { m with mem := [(bankBase, 1), (bankBase + 3, 0x80), (bankBase + 5, 0x20), (bankBase + 7, 0x80)], written := [(0, true)], items := [it], nextItem := 1 }
/-- The first codeword of the page list has two wrong symbols. -/
def badList (it : Item) : Mach := { withItem it with wrong := [(bankBase / 16, 2)] }
/-- The command of the item asks for no such session. -/
def noSession (kind : Nat) : Mach := (withItem (item kind)).wr .SEC_PART_RANGE_COUNT 0 0
/-- The list entry is empty and so is the pool. -/
def noPage : Mach := { withItem (item 3) with mem := [], written := [] }

theorem wit_WorkItemsBegin_fails :
    ([(1, stItemSession), (3, stItemSession)].all (fun x => (noSession x.1).awake && (noSession x.1).listUe (item x.1) == none && (noSession x.1).itemCheck (item x.1) == some x.2 &&
      (noSession x.1).nextItem? 0 x.1 == some (item x.1))) = true ∧
    (let it := { item 2 with len := 17 }; (withItem it).awake = true ∧ (withItem it).listUe it = none ∧ (withItem it).itemCheck it = some stItemFormat ∧ (withItem it).nextItem? 0 2 = some it) ∧
    ([1, 3].all (fun k => (badList (item k)).listUe (item k) == some bankBase && (badList (item k)).nextItem? 0 k == some (item k))) = true := by decide +kernel

theorem wit_WorkItemsBegin_runs :
    ([1, 2, 3].all (fun k => (withItem (item k)).awake && (withItem (item k)).listUe (item k) == none && (withItem (item k)).itemCheck (item k) == none &&
      (withItem (item k)).nextItem? 0 k == some (item k))) = true ∧
    ([1, 3].all (fun k => match (withItem (item k)).readIn (item k) (item k).inA (inLen (item k).desc (item k).fmt 1) with | (_, .ok _) => true | _ => false)) = true := by decide +kernel

theorem wit_WorkItemsBegin_append :
    (match (withItem (item 3)).appendPage 0 (item 3) with | (_, .ok (g, blank, popped)) => decide (g = 1) && blank && !popped | _ => false) = true ∧
    (withItem (item 3)).itemTurn (item 3) (pageBank 1) = true ∧ (withItem (item 3)).bankOpen 0 (pageBank 1) = true ∧
    ((withItem (item 3)).setBank 0 0 { Bank.idleBank with occupant := some 9 }).bankOpen 0 (pageBank 1) = false ∧ (item 3).failed = none ∧ (item 3).stopped = false ∧
    noPage.listUe (item 3) = none ∧ noPage.itemCheck (item 3) = none ∧ noPage.nextItem? 0 3 = some (item 3) ∧
    (match noPage.readIn (item 3) (item 3).inA (inLen (item 3).desc (item 3).fmt 1) with
      | (m, .ok _) => (match m.appendPage 0 (item 3) with | (_, .error st) => st == stPoolEmpty | _ => false) | _ => false) = true := by decide +kernel

/-- An item that runs on pages, in a phase, with work left; a data error has already failed it, so that its pages are walked without being folded (R206). -/
def running (pages : List Nat) (page work : Nat) (ph : ItemPhase) : Item := { item 1 with pages := pages, page := page, work := work, phase := ph, len := 64, failed := some stPoison }
/-- It occupies bank 0 in a segment with so many cycles left. -/
def onBank (it : Item) (left : Nat := 64) : Mach := (withItem it).setBank 0 0 { Bank.idleBank with phase := .segment, occupant := some 0, left := left }
/-- It is staged at an open bank 1, there in scratch or not. -/
def stagedAt (it : Item) (k : Bank) : Mach := ((withItem it).setDom (quadDom 0 0) ⟨2, false, 0, 0⟩).setBank 0 1 k

/-- Its staged record's bank is open; its staged record is wrong; its sent record arrives at bank 1. -/
theorem wit_ItemsMoveFromBankToBank_moves :
    (let it := running [1, 8192] 1 30 (.staged 1); let m := stagedAt it Bank.idleBank; m.awake = true ∧ m.items.find? (m.mayTake 0) = some it ∧ ((m.bank 0 1).staged == some it.id) = false) ∧
    (let it : Item := { running [1, 8192] 1 30 (.staged 1) with failed := none }; let m := stagedAt it { Bank.idleBank with staged := some 0, scratchWrong := true }
     m.items.find? (m.mayTake 0) = some it ∧ (m.bank 0 1).staged = some it.id ∧ (m.bank 0 1).scratchWrong = true ∧ it.failed = none) ∧
    (let it := running [1, 8192] 1 30 (.sending 0); let m := withItem it; m.firstRecord 0 = some it ∧ it.phase = .sending 0 ∧ (1 : Nat) = pageBank (nthD it.pages it.page 0)) := by
  decide +kernel

/-- At a yield point: work left; the last page's end; the next page in the same bank; the next page in another; an APPEND's step that does not fit in what is left, and one that fits. -/
theorem wit_ItemsMoveFromBankToBank_yields :
    ([running [1] 0 65 (.onBank 0), running [1] 0 64 (.onBank 0), running [1, 2] 0 64 (.onBank 0), running [1, 8192] 0 1 (.onBank 0)].all (fun it =>
      (onBank it).awake && ((onBank it).bank 0 0).occupant == some it.id && (onBank it).itemOf it.id == some it && ((onBank it).bank 0 0).phase == .segment && !((onBank it).bank 0 0).goingOffline &&
      (onBank it).running (quadDom 0 0) && it.desc.kind != 3 && ((onBank it).bank 0 0).left == 64 && it.failed != some stReset)) = true ∧
    pageBank 2 = 0 ∧ pageBank 8192 ≠ 0 ∧
    (let it := running [1] 0 64 (.onBank 0); let k := ((onBank it).foldPage it).2; k.pages[k.page + 1]? = none) ∧
    (let it := running [1, 2] 0 64 (.onBank 0); let k := ((onBank it).foldPage it).2; k.pages[k.page + 1]? = some 2) ∧
    (let it := running [1, 8192] 0 1 (.onBank 0); let k := ((onBank it).foldPage it).2; k.pages[k.page + 1]? = some 8192) ∧
    ([50, 40].all (fun left => let it : Item := { item 3 with pages := [1], phase := .onBank 0, work := 45 }; let m := onBank it left
      (m.bank 0 0).occupant == some it.id && m.itemOf it.id == some it && (m.bank 0 0).phase == .segment && m.running (quadDom 0 0) && (m.bank 0 0).left == left)) = true := by decide +kernel

/-- A bank goes offline at its item's next yield point; the item, with work left, keeps the bank and its plan and is to end with ST_POISON (R206, R338). -/
theorem test_bank_offline_at_yield :
    (let it : Item := { running [1] 0 65 (.onBank 0) with failed := none }
     let m := bankYield 0 0 ((onBank it).offlineBank 0 0)
     ((onBank it).offlineBank 0 0).rd .STACK_OFFLINE_BANKS 0 0 = 0 ∧ m.rd .STACK_OFFLINE_BANKS 0 0 = 1 ∧ (m.bank 0 0).occupant = some 0 ∧
     (m.itemOf 0).map (fun x => (x.failed, x.work)) = some (some stPoison, 1)) := by decide +kernel

/-- A partition reset leaves a running item its bank and its work, stopped at the yield point (R207). -/
theorem test_reset_item_keeps_plan :
    (let it : Item := { running [1] 0 65 (.onBank 0) with failed := none }
     let m := ({ onBank it with sq := { (onBank it).sq with issued := [] } } : Mach).resetItems it.part
     m.partResetBusy = true ∧ (bankYield 0 0 m).partResetBusy = false ∧ ((bankYield 0 0 m).bank 0 0).occupant = some 0 ∧
     ((bankYield 0 0 m).itemOf 0).map (fun x => (x.failed, x.stopped, x.work)) = some (some stReset, true, 1)) := by decide +kernel

/-- An access of the host at bank 511 of stack 11. -/
def hostWait : BankAccess := ⟨true, bankAddr 11 511 0, 256, none, 5, 0, false⟩

theorem wit_ServicePeriodsServeAccesses :
    fw.awake = true ∧ ((fw.setBank 11 511 { Bank.idleBank with phase := .segment }).bank 11 511).phase = .segment ∧ (fw.bank 11 511).phase ≠ .segment ∧ (fw.bank 11 511).occupant.isSome = false ∧
    (let m := fw.setBank 0 0 { Bank.idleBank with phase := .window, occupant := some 3 }; (m.bank 0 0).phase ≠ .segment ∧ (m.bank 0 0).occupant.isSome = true) ∧
    (let m := fw.setBank 11 511 { Bank.idleBank with waits := [hostWait] }; (m.bank 11 511).phase ≠ .segment ∧ (m.bank 11 511).waits = [hostWait] ∧ (hostWait.len + 31) / 32 ≤ 8) := by decide +kernel

theorem wit_RefreshAndThrottle :
    fw.awake = true ∧ (fw.stack 11).throt = false ∧ ((fw.setStack 11 { fw.stack 11 with throt := true }).stack 11).throt = true ∧
    (∀ b, b < 512 → b / 128 = 3 → (fw.bank 11 b).phase ≠ .segment) := by decide +kernel

/-- Partition 0's pool on stack 0 is enabled, with room for 16 pages. -/
def pool : Mach := ((rich fw).wr .SEC_POOL_CFG_ENABLE 1 0 0).wr .SEC_POOL_CFG_LOG2 4 0 0

theorem wit_ForgetsAndPoolAdds :
    fw.serves .fw (0x02000038 + 11 * 0x100000) = true ∧
    (let g := (fw.wr .STACK_FORGET_BASE (2 ^ 25 - 8) 11).wr .STACK_FORGET_LEN 8 11
     g.flag .STACK_FORGETST_BUSY 11 = false ∧ g.rd .STACK_FORGET_LEN 11 ≠ 0 ∧ g.rd .STACK_FORGET_BASE 11 + g.rd .STACK_FORGET_LEN 11 ≤ 2 ^ 25) ∧
    (let g := (fw.wr .STACK_FORGET_BASE (2 ^ 25 - 8) 11).wr .STACK_FORGET_LEN 9 11; 2 ^ 25 < g.rd .STACK_FORGET_BASE 11 + g.rd .STACK_FORGET_LEN 11) ∧
    ({ fw with forgets := [⟨11, 0, 8, .register⟩] } : Mach).forgets = ⟨11, 0, 8, .register⟩ :: [] ∧
    up.serves .host (0x00D00028 + 15 * 0x10000 + 11 * 0x100) = true ∧ up.firmware = false ∧ fw.firmware = true ∧
    fw.serves .fw (0x00D00028 + 15 * 0x10000 + 11 * 0x100) = true ∧ ((fw.wr .SEC_POOL_ADD_FIRST 0 15 11).wr .SEC_POOL_ADD_COUNT 1 15 11).flag .SEC_POOL_CFG_ENABLE 15 11 = false ∧
    pool.serves .fw 0x00D00028 = true ∧
    (let a := (pool.wr .SEC_POOL_ADD_FIRST 3 0 0).wr .SEC_POOL_ADD_COUNT 2 0 0
     a.addOf 0 0 = none ∧ a.flag .SEC_POOL_CFG_ENABLE 0 0 = true ∧ a.rd .SEC_POOL_ADD_COUNT 0 0 = 2 ∧ a.rd .SEC_POOL_ADD_FIRST 0 0 = 3 ∧
     (∀ i < 2, a.allowedRW 0 (pageAddr 0 (3 + i)) 8192 = true) ∧ a.rd .SEC_POOL_COUNT_FREE 0 0 + 2 ≤ 2 ^ a.rd .SEC_POOL_CFG_LOG2 0 0) ∧
    (let a : Mach := { pool with adds := [(poolKey 0 0, 3, 2)] }; a.awake = true ∧ a.addOf 0 0 = some (3, 2)) := by decide +kernel

/-- Bit at which slot k of a bundle begins (R122). -/
def slotAt (k : Nat) : Nat := if k = 1 then 232 else if k = 2 then 0 else if k = 3 then 48 else if k = 4 then 112 else if k = 5 then 144 else 192
/-- Core 0 runs the KERNEL and has fetched a bundle whose slot k holds word w alone. -/
def coreM (k w : Nat) (d : CoreData) : Mach :=
  let c : Core := { Core.idle with run := true, fetched := true, kernel := some 0, d := d, before := d }
  { (descs kernM).setCore 0 c with istore := [(0, BitVec.ofNat 256 (w * 2 ^ slotAt k))] }
/-- A word of the scalar slot: D = s5, A = s3, B = s4. -/
def sw (op imm : Nat) : Nat := op + 5 * 2 ^ 8 + 3 * 2 ^ 13 + 4 * 2 ^ 18 + imm * 2 ^ 23
/-- A core's data with s3 and s4. -/
def cd (a b : Nat) : CoreData := { CoreData.fresh with sregs := [(3, BitVec.ofNat 64 a), (4, BitVec.ofNat 64 b)] }
/-- The scalar slot's word is next. -/
def sc (op imm : Nat) (d : CoreData) : Bool := (coreM 2 (sw op imm) d).slotReady 0 2 (sw op imm) && sw op imm % 256 == op
/-- A queue of two entries of 256 bytes, one of them present and ready. -/
def q1 (base : Nat) : CQueue := ⟨true, base, 1, 2, 1, 0, 0, [], [], []⟩
/-- The same, empty. -/
def q0 (base esize : Nat) : CQueue := ⟨true, base, esize, 2, 0, 0, 0, [], [], []⟩

theorem wit_ScalarResultsComeDue :
    ([1, 2, 3, 4, 5, 6, 7, 8, 9, 0xA, 0xB, 0xC, 0xD, 0xE, 0x1A, 0x1B].all (fun op => sc op 8 (cd 0 9))) = true ∧ wImm (sw 0xC 8) = 8 ∧
    (coreM 2 (sw 0xC 8) (cd 0 9)).readUe false (coreAddr 0 8) 8 = false ∧ ({ coreM 2 (sw 0xC 8) (cd 0 9) with wrong := [(coreAddr 0 8 / 16, 2)] } : Mach).readUe false (coreAddr 0 8) 8 = true ∧
    (coreM 2 (sw 0x1A 8) (cd 0 9)).kernelOf 0 = some kern ∧ (coreM 2 (sw 0x1B 0) (cd 0 9)).physOf 0 = some 0 ∧ (coreM 2 (sw 0x1B 0) (cd 255 9)).physOf 255 = none := by decide +kernel

theorem wit_ScalarControlActs :
    ([0x10, 0x11, 0x12].all (fun op => sc op 4095 (cd 1 0))) = true ∧ sc 0x13 4095 (cd 1 0) = true ∧ (cd 1 0).loops.length < 4 ∧ (cd 1 0).s 3 ≠ 0 ∧
    (let d := { cd 1 0 with loops := List.replicate 4 ⟨0, 9, 1⟩ }; sc 0x13 4 d = true ∧ 4 ≤ d.loops.length) ∧ sc 0x13 4 (cd 0 0) = true ∧ ((cd 0 0).s 3).toNat = 0 ∧
    sc 0x18 0 (cd (2 ^ 13 + 2 ^ 22) 0) = true ∧ ((cd (2 ^ 13 + 2 ^ 22) 0).qcfg 5 (2 ^ 13 + 2 ^ 22)).isSome = true ∧ sc 0x18 0 (cd 0 0) = true ∧ (cd 0 0).qcfg 5 0 = none ∧
    (let d := (cd 0 0).setQueue 5 { q1 0 with popped := 1 }; sc 0x19 1 d = true ∧ (1 : Nat) ≤ (d.queue 5).rew) ∧ sc 0x19 1 (cd 0 0) = true ∧ ((cd 0 0).queue 5).rew < 1 ∧
    sc 0x1C 0 (cd 7 0) = true ∧ sc 0x1D 1 (cd 0 4095) = true ∧ fillBad 0 4095 1 = false ∧ sc 0x1D 2 (cd 0 4095) = true ∧ fillBad 0 4095 2 = true ∧ wImm (sw 0x1D (2 ^ 24)) < 0 ∧
    sc 0x1E 0 (cd (2 + 2 * 32) 0) = true ∧ pairOk (2 + 2 * 32) = true ∧ sc 0x1E 0 (cd 1 0) = true ∧ pairOk 1 = false ∧ sc 0x1F 8 (cd 0 0) = true ∧ (cd 0 0).amo = none ∧
    (let d := { cd 0 0 with amo := some ⟨0, 1, 0, 0, false, 0, 0⟩ }; sc 0x1F 8 d = true ∧ d.amo = some ⟨0, 1, 0, 0, false, 0, 0⟩) := by decide +kernel

/-- A sync word: X = 1, N = n. -/
def yw (op n : Nat) : Nat := op + 2 ^ 8 + n * 2 ^ 13
theorem wit_SyncOperationsWait :
    ([1, 2, 3, 4, 5, 6, 7, 9, 0xC, 0xD].all (fun op => (coreM 1 (yw op 2) (cd 0 0)).slotReady 0 1 (yw op 2) && yw op 2 % 256 == op)) = true := by decide +kernel

/-- The core stands at the barrier. -/
def atBarrier : Mach := (coreM 1 (yw 8 0) (cd 0 0)).setCore 0 { (coreM 1 (yw 8 0) (cd 0 0)).core 0 with barrier := some 1 }
/-- A switch out of partition 0 is requested. -/
def switching (d : CoreData) : Mach := ((coreM 1 (yw 0xA 0) d).wr .SEC_PSW_BUSY 1).wr .SEC_PSW_OUT 0
theorem wit_GroupsMeetAndEnd :
    (coreM 1 (yw 8 0) (cd 0 0)).slotReady 0 1 (yw 8 0) = true ∧ ((coreM 1 (yw 8 0) (cd 0 0)).core 0).released = false ∧
    (let m := atBarrier.setCore 0 { atBarrier.core 0 with released := true }; m.slotReady 0 1 (yw 8 0) = true ∧ (m.core 0).released = true) ∧
    (atBarrier.groupPhys 0 0).filterMap id = [0] ∧ (∀ k ∈ [0], (atBarrier.core k).barrier = some 1 ∧ (atBarrier.core k).released = false) ∧
    (coreM 1 (yw 0xA 0) (cd 0 0)).slotReady 0 1 (yw 0xA 0) = true ∧ (coreM 1 (yw 0xA 0) (cd 0 0)).switchWanted 0 = false ∧
    (switching (cd 0 0)).slotReady 0 1 (yw 0xA 0) = true ∧ (switching (cd 0 0)).corePart 0 = 0 ∧ (switching (cd 0 0)).switchWanted 0 = true ∧ (cd 0 0).unitsIdle = true ∧ (cd 0 0).amo.isNone = true ∧
    (let d := { cd 0 0 with ifill := [⟨0, 0, 1⟩] }; (switching d).slotReady 0 1 (yw 0xA 0) = true ∧ (switching d).switchWanted 0 = true ∧ d.unitsIdle = false ∧
      (coreM 1 (yw 0xB 0) d).slotReady 0 1 (yw 0xB 0) = true) ∧
    (coreM 1 (yw 0xB 0) (cd 0 0)).slotReady 0 1 (yw 0xB 0) = true ∧ ((coreM 1 (yw 0xB 0) (cd 0 0)).setCore 0 { Core.idle with ended := true, kernel := some 0 }).kernelOf 0 = some kern := by decide +kernel

/-- Queues 1 to 3 hold an entry each and queue 4 is empty, with room for 65,536 bytes. -/
def vd : CoreData := (((cd 0 0).setQueue 1 (q1 0)).setQueue 2 (q1 8)).setQueue 3 (q1 16) |>.setQueue 4 (q0 24 256)
/-- A vector word on queues 1, 2, 3 and 4, in FP32 (vx.cvt to BF16). -/
def vw (op : Nat) : Nat := op + 1 * 2 ^ 8 + 2 * 2 ^ 14 + 3 * 2 ^ 20 + 4 * 2 ^ 26 + (if op = 0x20 then 2 ^ 38 else 0)
/-- The operands of a vector word, read. -/
def vops (op : Nat) : Except Nat (List Bytes × List (Nat × Nat) × CoreData) :=
  vecOperands (coreM 3 (vw op) vd) 0 (([bits (vw op) 13 8, bits (vw op) 19 14, bits (vw op) 25 20]).take (vecArity op)) vd

/-- A result is no longer than the entry of 65,536 bytes that queue 4 has free: `give` takes any such length. -/
theorem wit_VectorOperationsPushTheirLanes :
    ([1, 2, 3, 4, 5, 6, 8, 9, 0xA, 0x10, 0x11, 0x18, 0x20, 0x21, 0x22, 0x28, 0x29].all (fun op => (coreM 3 (vw op) vd).slotReady 0 3 (vw op) && vw op % 256 == op &&
      (match vops op with | .ok (_, _, d1) => (match d1.give 4 65536 with | .ok _ => true | _ => false) | _ => false))) = true := by decide +kernel
theorem wit_VectorOperationsPushTheirLanes_lanes :
    (match vops 4 with | .ok (es, _, _) => es.all (fun e => e.length == 256) | _ => false) = true ∧
    (match vops 0x18 with | .ok (es, _, _) => (match (coreM 3 (vw 0x18) vd).gatherLanes 0 0 0 (lanesOf 2 (nthD es 0 [])) with | .ok _ => true | _ => false) | _ => false) = true := by
  decide +kernel

/-- Two queues with panels of one-plane formats, present and ready, and an output queue of 65,536-byte entries. -/
def xd : CoreData :=
  ((({ cd (2 ^ 12) 0 with mf := [(1, 0x11 + 0x11 * 32)] }.setQueue 1 { q0 0 5 with pushed := 1 }).setQueue 2 { q0 10 9 with pushed := 1 }).setQueue 4 (q0 28 256))
/-- The matrix word: panels of queues 1 and 2, format slot 1; and a drain of bank 0 to queue 4. -/
def mw : Nat := 1 + 1 * 2 ^ 8 + 2 * 2 ^ 14 + 1 * 2 ^ 22
def dw : Nat := 2 + 3 * 2 ^ 8 + 4 * 2 ^ 24
/-- An mma in flight, of panels kept in their queues. -/
def mma : Mma := ⟨1, 0, 0, false, 2, 0, 0, false, 0, false, 0x11 + 0x11 * 32, [], [], 0⟩
/-- A drain to queue 4. -/
def drain (started : Bool) : Drain := ⟨0, 4, 0, 0, 0, started, 0⟩

theorem wit_MatrixUnitsCompute :
    fw.awake = true ∧ (coreM 4 mw xd).slotReady 0 4 mw = true ∧ mw % 256 = 1 ∧ xd.macWait = none ∧ pairOk (nget (fun _ => 0) xd.mf (bits mw 23 22)) = true ∧
    (match xd.take 1 (panelLen 0x11 8192) with
      | .ok (ia, d1) => (match (coreM 4 mw xd).entry 0 1 ia (panelLen 0x11 8192), d1.take 2 (panelLen 0x11 16384) with
        | .ok _, .ok (ib, _) => (match (coreM 4 mw xd).entry 0 2 ib (panelLen 0x11 16384) with | .ok _ => true | _ => false) | _, _ => false) | _ => false) = true ∧
    (let d := { xd with macWait := some mma }; (coreM 4 mw d).slotReady 0 4 mw = true ∧ d.macWait.isSome = true) ∧
    (let d := { xd with macRun := some mma }; d.macRun = some mma ∧ mma.relA = false ∧ mma.relB = false ∧ d.drainRun = none ∧ d.drainWait = none) ∧
    (coreM 4 dw xd).slotReady 0 4 dw = true ∧ dw % 256 = 2 ∧ xd.drainWait = none ∧ (xd.queue (bits dw 28 24)).configured = true ∧ xd.tailClaim (bits dw 28 24) ≠ 1 ∧
    drainRowLen (bits dw 31 29) ≤ (xd.queue (bits dw 28 24)).bytes ∧
    (let d := { xd with drainRun := some (drain false) }; d.drainRun = some (drain false) ∧ (drain false).started = false ∧ (drain false).afterMmas = 0) ∧
    (let d := { xd with drainRun := some (drain true) }; d.drainRun = some (drain true) ∧ (drain true).started = true ∧ (d.queue 4).free ≠ 0 ∧ (drain true).row < 127) := by decide +kernel

/-- A core's data whose s3 holds the handle of descriptor 1 and whose queue 4 is empty, queue 1 holding an entry. -/
def ld : CoreData := ((cd (handleOf 0 1 1) 0).setQueue 4 (q0 24 256)).setQueue 1 (q1 0)
/-- A load word (to queue 4) and a store word (from queue 1), with s3 the handle, s4 the tile, and a count. -/
def lw (count : Nat) : Nat := 1 + 4 * 2 ^ 8 + 3 * 2 ^ 13 + 4 * 2 ^ 18 + count * 2 ^ 23
def tw (count : Nat) : Nat := 1 + 1 * 2 ^ 8 + 3 * 2 ^ 13 + 4 * 2 ^ 18 + count * 2 ^ 23
/-- A load and a store that have nothing left to ask. -/
def aload : LoadOp := ⟨4, [2 ^ 13 + 2 ^ 16, 4096, 0, 0, 1, 8 + 8 * 2 ^ 32], 0, 1, 0, [(0, 0)], [], 0, false⟩
def astore : StoreOp := ⟨1, [], 0, 1, 0, 0, 0⟩

theorem wit_LoadsAndStoresStream :
    (coreM 5 (lw 0) ld).slotReady 0 5 (lw 0) = true ∧ (coreM 5 (lw 4095) ld).slotReady 0 5 (lw 4095) = true ∧ ld.loads.length < 8 ∧ (ld.queue 4).configured = true ∧ ld.tailClaim 4 ≠ 3 ∧
    (match (coreM 5 (lw 1) ld).ldstDesc 0 (handleOf 0 1 1) false with
      | some ws => (let t := (coreM 5 (lw 1) ld).tensorOf 0 ws; decide (t.tileLen ≤ (ld.queue 4).bytes) && (coreM 5 (lw 1) ld).tileOk 0 t 0 && (match ld.give 4 t.tileLen with | .ok _ => true | _ => false))
      | none => false) = true ∧ (coreM 5 (lw 1) ld).slotReady 0 5 (lw 1) = true ∧
    (let d := { ld with loads := List.replicate 8 aload }; (coreM 5 (lw 1) d).slotReady 0 5 (lw 1) = true ∧ d.loads.length = 8) ∧
    (coreM 6 (tw 0) ld).slotReady 0 6 (tw 0) = true ∧ (coreM 6 (tw 2) ld).slotReady 0 6 (tw 2) = true ∧ ld.stores.length < 8 ∧ (ld.queue 1).configured = true ∧
    (match (coreM 6 (tw 2) ld).ldstDesc 0 (handleOf 0 1 1) true with | some ws => decide (((coreM 6 (tw 2) ld).tensorOf 0 ws).tileLen ≤ (ld.queue 1).bytes) | none => false) = true ∧
    (let d := { ld with loads := [aload] }; d.loads = [aload] ∧ aload.dst = 4 ∧ aload.left = 0 ∧ aload.asked = [(0, 0)]) ∧
    (let d := { ld with stores := [astore] }; d.stores = astore :: [] ∧ astore.left = 0) := by decide +kernel

/-- An atomic on the first word of stack 0, and one past the end of the local addresses. -/
def anAmo (a : Nat) : CoreAmo := ⟨0, 5, a, 0, true, 1, 0⟩
/-- Core 0 with that atomic outstanding. -/
def amoM (a : Nat) : Mach := coreM 2 (sw 1 0) { cd 0 0 with amo := some (anAmo a) }

theorem wit_CoreEventsAct :
    (let d := { cd 0 0 with pend := [⟨5, 1, 0, 1⟩] }; d.pend = [⟨5, 1, 0, 1⟩]) ∧ (let d := { vd with vtoks := [⟨4, 0, [], 4⟩] }; d.vtoks = [⟨4, 0, [], 4⟩]) ∧
    (2 ^ 48 : Nat) ≤ (anAmo (2 ^ 48)).addr ∧ ((amoM 3).core 0).d.amo = some (anAmo 3) ∧ ((amoM 3).core 0).d.landed = [] ∧ (amoM 3).amoTarget 3 true = false ∧
    (anAmo bankBase).addr < 2 ^ 48 ∧ (amoM bankBase).amoTarget bankBase true = true ∧ (amoM bankBase).corePart 0 = 0 ∧ (amoM bankBase).kernelOf 0 = some kern ∧
    ((amoM bankBase).mirrorAll false 0 (some kern.id) bankBase 8).2.readUe false bankBase 8 = false ∧
    (let d := { cd 0 0 with ifill := [⟨0, 0, 1⟩] }; d.ifill = ⟨0, 0, 1⟩ :: []) ∧
    (let m : Mach := { coreM 2 (sw 1 0) (cd 0 0) with groupStops := [⟨0, stCoreTrap, 0, 0⟩] }; m.groupStops = [⟨kern.id, stCoreTrap, 0, 0⟩] ∧ m.issuedOf kern.id = some kern ∧ kern.part = 0 ∧ kern.queue = 4 + 0) ∧
    ((coreM 2 (sw 1 0) (cd 0 0)).core 0).run = true ∧ ((coreM 2 (sw 1 0) (cd 0 0)).core 0).atSwitch = false ∧ (coreM 2 (sw 1 0) (cd 0 0)).rd .CORE_WDOG_LIMIT 0 ≠ 0 ∧
    (coreM 2 (sw 1 0) (cd 0 0)).serves .fw 0x01000038 = true ∧ (coreM 2 (sw 1 0) (cd 0 0)).coreHidden 0x01000038 = false ∧ fw.serves .fw (0x01000038 + 183 * 0x10000) = true ∧ (fw.core 183).run = false ∧ fw.coreHidden (0x01000038 + 183 * 0x10000) = false ∧ fw.serves .fw (0x01000038 + 191 * 0x10000) = true ∧
    fw.coreHidden (0x01000038 + 191 * 0x10000) = true ∧ fillBad 0 0 1 = false ∧
    (rich fw).serves .fw 0x01000008 = true ∧ ((rich fw).map 0).st = 0 ∧ ((rich fw).groupOf 0).isSome = true ∧ (fw.map 0).st = 0 ∧ fw.groupOf 0 = none := by decide +kernel

theorem wit_IllegalOperationsTrap :
    (coreM 2 (sw 0x0F 0) (cd 0 0)).atSlot 0 2 (sw 0x0F 0) = true ∧ slotIllegal 2 (sw 0x0F 0) = true ∧ (coreM 1 (yw 14 0) (cd 0 0)).atSlot 0 1 (yw 14 0) = true ∧ slotIllegal 1 (yw 14 0) = true ∧
    (coreM 3 7 (cd 0 0)).atSlot 0 3 7 = true ∧ slotIllegal 3 7 = true ∧ (coreM 4 3 (cd 0 0)).atSlot 0 4 3 = true ∧ slotIllegal 4 3 = true ∧ (coreM 5 2 (cd 0 0)).atSlot 0 5 2 = true ∧
    slotIllegal 5 2 = true ∧ (coreM 6 2 (cd 0 0)).atSlot 0 6 2 = true ∧ slotIllegal 6 2 = true ∧ (coreM 2 (sw 0x0F 0) (cd 0 0)).kernelOf 0 = some kern ∧ fkIllegal ≠ fkAbft ∧
    fkIllegal ≠ fkIfetchUe ∧ fkIllegal ≠ fkDataUe := by decide +kernel

theorem wit_DescriptorsLiveAndDrain :
    up.serves .host (0x00E00080 + 15 * 0x10000) = true ∧ up.firmware = false ∧ fw.firmware = true ∧
    fw.serves .fw (0x00E00080 + 15 * 0x10000) = true ∧ fw.flag .SEC_DRES_BUSY 15 = false ∧ (fw.wr .SEC_DRES_BUSY 1 15).flag .SEC_DRES_BUSY 15 = true ∧
    (((descs fw).wr .SEC_DCTL_TARGET (handleOf 0 1 1) 0).resolveHandle 0 (handleOf 0 1 1)).isSome = true ∧ ((descs fw).wr .SEC_DCTL_TARGET (handleOf 0 1 2) 0).resolveHandle 0 (handleOf 0 1 2) = none ∧
    (let w := [2 ^ 13 + 2 ^ 16, 0, 0, 0, 1, 8 + 8 * 2 ^ 32] ++ List.replicate 10 0
     let m : Mach := { (rich fw).wr .SEC_DRES_BUSY 1 0 with creating := [(0, w)] }
     m.awake = true ∧ m.flag .SEC_DRES_BUSY 0 = true ∧ nget (fun _ => []) m.creating 0 = w ∧ m.validate 0 w = stOk ∧ (List.range 4096).find? (fun i => (m.desc 0 i).st == 0) = some 0 ∧
     m.validate 0 (List.replicate 16 0) ≠ stOk) ∧
    (let m := fw.setDesc 15 4095 ⟨2, 65535, [], [7]⟩; m.awake = true ∧ (m.desc 15 4095).st = 2 ∧ (∀ c ∈ (m.desc 15 4095).waitFor, m.issuedOf c = none)) := by decide +kernel

/-- Partition 0 with nothing enabled, and with queue 19 enabled. -/
def busyPart : Mach := fw.wr .SEQR_QCTL_ENABLE 1 0 19

/-- Partition 1, which is sealed, has a grant of stack 0 without rights. -/
def sealedPart : Mach := ((fw.wr .SEC_ALLOC_BASE bankBase 1 0).wr .SEC_ALLOC_LEN 4096 1 0).wr .SEC_TENANT_CTL_SEALED 1 1

theorem wit_AllocationsAndEnables :
    up.serves .host (0x00E01000 + 15 * 0x10000 + 255 * 0x10) = true ∧ up.firmware = false ∧ fw.allocPend = [] ∧
    fw.serves .fw (0x00E01000 + 15 * 0x10000 + 255 * 0x10) = true ∧ fw.rd .SEC_ALLOC_REFS 15 255 = 0 ∧
    (let new := ((fw.wr .SEC_ALLOC_BASE bankBase 15 255).wr .SEC_ALLOC_READ (bankBase / 2 ^ 48) 15 255).wr .SEC_ALLOC_WRITE (bankBase / 2 ^ 49) 15 255; new.allocOk 15 255 = true) ∧
    (let new := ((fw.wr .SEC_ALLOC_BASE 1 15 255).wr .SEC_ALLOC_READ 0 15 255).wr .SEC_ALLOC_WRITE 0 15 255; new.allocOk 15 255 = false) ∧ (fw.wr .SEC_ALLOC_LEN 4096 15 255).allocOk 15 255 = true ∧
    (fw.wr .SEC_ALLOC_REFS 1 15 255).rd .SEC_ALLOC_REFS 15 255 ≠ 0 ∧ fw.isSealed 15 = false ∧
    (let s := sealedPart
     let new := ((s.wr .SEC_ALLOC_BASE bankBase 1 0).wr .SEC_ALLOC_READ 1 1 0).wr .SEC_ALLOC_WRITE 1 1 0
     let m' := (s.startForgets (s.rd .SEC_ALLOC_BASE 1 0) (s.rd .SEC_ALLOC_LEN 1 0) (.alloc 1 0)).startForgets (new.rd .SEC_ALLOC_BASE 1 0) (new.rd .SEC_ALLOC_LEN 1 0) (.alloc 1 0)
     s.serves .fw (0x00E01000 + 0x10000) = true ∧ s.allocPend = [] ∧ s.rd .SEC_ALLOC_REFS 1 0 = 0 ∧ new.allocOk 1 0 = true ∧ s.isSealed 1 = true ∧
     m'.forgets.any (fun f => f.owner == .alloc 1 0) = true) ∧ fw.serves .fw (0x00C80000 + 15 * 0x100) = true ∧ fw.firmware = true ∧
    fw.enabled 0 = true ∧ fw.enabled 15 = false ∧ fw.groupsBad 15 = false ∧ (∀ q < 16, q ≠ 15 → fw.enabled q = true → fw.rangesOverlap 15 q = false) ∧
    (∀ q < 20, fw.flag .SEQR_QCTL_ENABLE 0 q = false) ∧ fw.sq.issued = [] ∧ busyPart.enabled 0 = true ∧ busyPart.flag .SEQR_QCTL_ENABLE 0 19 = true := by decide +kernel

/-- Partition 15 enabled and not resident. -/
def two : Mach := (coreM 2 (sw 1 0) (cd 0 0)).wr .SEC_PART_CTL_ENABLE 1 15
/-- A switch from partition 0 to 15 in a phase, accepted at tick 0; the running tick is 5. -/
def phase (n : Nat) : Mach :=
  let m := ((two.wr .SEC_PSW_BUSY 1).wr .SEC_PSW_PHASE n)
  { m with switch := { m.switch with out := 0, inn := 15, at_ := 0 }, time := { m.time with ns := 500 } }

theorem wit_SwitchesGoThroughTheirPhases :
    two.serves .fw 0x00C81000 = true ∧ two.firmware = true ∧
    (let m := (two.wr .SEC_PSW_OUT 0).wr .SEC_PSW_IN 15; m.switchRefused (m.rd .SEC_PSW_OUT) (m.rd .SEC_PSW_IN) = false) ∧
    (let m := (two.wr .SEC_PSW_OUT 0).wr .SEC_PSW_IN 14; m.switchRefused (m.rd .SEC_PSW_OUT) (m.rd .SEC_PSW_IN) = true) ∧
    (phase 3).serves .fw 0x00C81000 = true ∧ (phase 3).firmware = true ∧
    ([1, 2, 3, 4, 5].all (fun n => (phase n).awake && (phase n).flag .SEC_PSW_BUSY && (phase n).rd .SEC_PSW_PHASE == n)) = true ∧ (phase 1).switch.at_ ≠ (phase 1).tick ∧
    (let m : Mach := { phase 1 with time := { (phase 1).time with ns := 0 } }; m.switch.at_ = m.tick) ∧
    (phase 1).resident 0 = true ∧ ((phase 1).wr .SEC_PART_CTL_RESIDENT 0 0).resident 0 = false ∧ ((phase 2).setCore 0 Core.idle).undrained 0 = [] ∧ (phase 3).unsettled 0 = false ∧
    (let m := (phase 2).wr .SEC_PSW_LIMIT 0; m.drainSince 0 = some 0 ∧ m.kernelOf 0 = some kern ∧ m.corePart 0 = 0 ∧ 0 ∈ m.undrained 0 ∧ 0 + m.rd .SEC_PSW_LIMIT ≤ m.tick) := by decide +kernel
/-- A frame for this block, at its last hop, of 32 bytes to the start of stack 0. -/
def fr : Frame := { f0 with dstBlock := 0x3FF, hidx := 1, route := 1, len := 1, addr := bankBase, data := List.replicate 32 0 }
/-- Port 0 UP, partition 0 with stack 0, firmware running, test mode entered: frames of slot 0 are taken. -/
def lm : Mach := rich fw
/-- The same out of test mode: no such frame verifies. -/
def lk : Mach := lm.wr .RST_MODE_TEST 0
/-- A request whose reply f waits for. -/
def asks (m : Mach) : Mach := { m with requests := [⟨0, 0, bankBase, 32⟩], sq := { m.sq with issued := [{ kern with queue := 1, cmd := cmd 5 1 0 0 0 1 }] } }

theorem wit_RoutedFramesHaveTheirEffect :
    ([0x10, 0x11, 0x12, 0x13, 0x14, 0x15].all (fun t => lk.reaches 0 { fr with typ := t } && (lk.counted 0).openFrame { fr with typ := t, ret := retWith fr 0 } == none)) = true ∧
    ([0x10, 0x11, 0x12, 0x13, 0x14, 0x15].all (fun t => lm.reaches 0 { fr with typ := t } && ((lm.counted 0).openFrame { fr with typ := t, ret := retWith fr 0 }).isSome)) = true ∧
    ((lm.counted 0).rangeOk bankBase 32 && (lm.counted 0).granted 0 true bankBase 32 && (lm.counted 0).granted 0 false bankBase 32) = true ∧ (lm.counted 0).rangeOk 0 32 = true ∧
    (lm.counted 0).granted 0 true 0 32 = false ∧ (lm.counted 0).granted 0 false 0 32 = false ∧ lm.reaches 0 { fr with addr := 0 } = true ∧
    bankBase % 32 = 0 ∧ (lm.counted 0).inBlock bankBase = true ∧ (lm.counted 0).transfer 0 0 0 = none ∧ (lm.counted 0).tableFull 0 = false ∧
    (let m : Mach := { lm with transfers := [⟨0, 0, 0, 0, 0, none, none⟩] }; (m.counted 0).transfer 0 0 0 = some ⟨0, 0, 0, 0, 0, none, none⟩) ∧
    (let m : Mach := { lm with transfers := (List.range 256).map (fun x => ⟨1, 0, x, 0, 0, none, none⟩) }; (m.counted 0).transfer 0 0 0 = none ∧ (m.counted 0).tableFull 0 = true) ∧
    ((lm.counted 0).mirrorAll false 0 none bankBase 32).2.readUe false bankBase 32 = false ∧ (lm.counted 0).requestOf 0 = none ∧
    ((asks lm).counted 0).requestOf 0 = some (⟨0, 0, bankBase, 32⟩, { kern with queue := 1, cmd := cmd 5 1 0 0 0 1 }) ∧
    ((asks lm).counted 0).replyLate { kern with queue := 1, cmd := cmd 5 1 0 0 0 1 } = false ∧ ((((asks lm).counted 0).write 0 true bankBase (slice (List.replicate 32 0) 0 8)).2 = false) ∧ fr.status = stOk ∧ { fr with status := 1 }.status ≠ stOk ∧ fr.causes = 0 ∧
    (lm.counted 0).flag .RST_MODE_TEST = true ∧ (lm.counted 0).allowedRW 0 bankBase 4 = true ∧ (lm.counted 0).amoTarget bankBase false = true ∧ field (List.replicate 32 0) 0 1 ≤ 5 := by decide +kernel
/-- ATOMREQ outside test mode: its frame is under a link key, and whether its tag verifies is a free value (log entry 8), so that no concrete frame can be shown for that clause. -/
theorem wit_RoutedFramesHaveTheirEffect_atomics : (lk.counted 0).flag .RST_MODE_TEST = false ∧ lk.reaches 0 { fr with typ := 0x14, keyslot := 1 } = true := by decide +kernel

theorem wit_FramesAreRelayedOrDiscarded :
    lm.hears 0 = true ∧ (let m := (lm.wr .LINK_STOP_SRC 0 0).wr .LINK_STOP_PMASK 1 0; m.hears 0 = true ∧ (m.counted 0).stoppedFrame 0 fr = true) ∧ (lm.counted 0).stoppedFrame 0 fr = false ∧
    (let f := { fr with route := 2 }; f.hidx < routeHops f.route ∧ routePort f.route f.hidx = 0 ∧ (lm.counted 0).portUp 0 = true) ∧
    (let f := { fr with route := 2 + 15 * 256 }; f.hidx < routeHops f.route ∧ routePort f.route f.hidx = 15 ∧ (lm.counted 0).portUp 15 = false) ∧
    routeHops fr.route ≤ fr.hidx ∧ { fr with dstBlock := 0 }.dstBlock ≠ (lm.counted 0).rd .GLOBAL_BLOCK_NUM ∧ fr.dstBlock = (lm.counted 0).rd .GLOBAL_BLOCK_NUM ∧
    (let m := lm.wr .SEC_BOOT_STATE 0; m.hears 0 = true ∧ (m.counted 0).firmware = false) := by decide +kernel

theorem wit_HopFramesAct :
    lm.awake = true ∧ lm.hears 0 = true ∧ (lm.counted 0).portUp 0 = true ∧ (lm.counted 0).trains 0 = false ∧ (lm.counted 0).rd .LINK_STOP_SRC 0 = lm.rd .LINK_STOP_SRC 0 ∧
    (lm.counted 0).rd .LINK_STOP_SRC 0 ≠ 7 ∧ (lm.wr .TIME_CTL_ROLE 1).rd .TIME_CTL_ROLE ≠ 0 ∧ (lm.counted 0).rd .TIME_CTL_ROLE = 0 ∧ (62 : Nat) < 63 ∧
    (let k : Mach := { lm.counted 0 with time := { lm.time with sync := { lm.time.sync with heard := [⟨0, 5, 1, 0⟩] } } }; k.source = some ⟨0, 5, 1, 0⟩) ∧
    (let k : Mach := { lm.counted 0 with time := { lm.time with sync := { lm.time.sync with heard := [⟨0, 5, 1, 0⟩, ⟨1, 4, 1, 0⟩] } } }; k.source = some ⟨1, 4, 1, 0⟩) := by decide +kernel

/-- Paired on port 0, with step 7 of partition 0 open. -/
def pm : Mach := (((lm.wr .LINK_PAIR_ENABLE 1).wr .LINK_PAIR_PORT 0).wr .SEQR_STEP_OPEN 1 0).wr .SEQR_STEP_NUM 7 0
/-- A frame of the twin that carries some data, and a digest's data for that step and another. -/
def tf (data : Bytes) : Frame := { fr with dstBlock := 0, route := 0, hidx := 0, addr := 0, data := data }
def dg (step : Nat) : Bytes := List.replicate 32 0 ++ toBytes 6 step ++ List.replicate 26 0
/-- An EMIT of partition 0, issued. -/
def emitCmd : Issued := { kern with queue := 0, cmd := cmd 9 0 2 0 0 0 }
/-- That EMIT waits for its twin, its own digest sent at tick 0 or not yet. -/
def waits (own : Option Digest) : PairWait := ⟨0, 0, [], own, 0⟩
def emits (own : Option Digest) (ns : Nat) : Mach :=
  let m := pm.wr .LINK_PAIR_WAIT 100
  { m with time := { m.time with ns := ns }, sq := { m.sq with issued := [emitCmd] }, pair := { m.pair with waits := [waits own] } }
/-- The own check has passed at tick 0; the twin is silent. -/
def checked : Mach := let m := (pm.wr .LINK_PAIR_STATE 2).wr .LINK_PAIR_GRACE 0; { m with pair := { m.pair with ownCheck := some .pass } }

theorem wit_PairFramesAndTimers :
    lm.awake = true ∧ lm.hears 0 = true ∧ (lm.counted 0).flag .LINK_PAIR_ENABLE = false ∧ pm.hears 0 = true ∧ (pm.counted 0).flag .LINK_PAIR_ENABLE = true ∧ (pm.counted 0).rd .LINK_PAIR_PORT = 0 ∧
    ([0x20, 0x21, 0x22].all (fun t => ((pm.wr .RST_MODE_TEST 0).counted 0).openFrame { tf (dg 7) with typ := t } == none && ((pm.counted 0).openFrame { tf (dg 7) with typ := t }).isSome)) = true ∧
    (let k := (pm.counted 0).hearFrame { tf (dg 7) with typ := 0x20 }
     (digestOf (dg 7)).part = 0 ∧ (digestOf (dg 7)).step = 7 ∧ k.flag .SEQR_STEP_OPEN 0 = true ∧ k.rd .SEQR_STEP_NUM 0 = 7 ∧ k.pair.waits = [] ∧ (digestOf (dg 8)).step = 8) ∧
    (let k := ((emits none 0).counted 0).hearFrame { tf (dg 7) with typ := 0x20 }; k.pair.waits.find? (fun w => w.part == 0) = some (waits none)) ∧
    (emits none 0).pair.waits.find? (fun w => w.own.isNone) = some (waits none) ∧
    (let o := digestOf (dg 7); let m : Mach := { emits (some o) 0 with pair := { (emits (some o) 0).pair with twins := [o] } }; (waits (some o)).own = some o ∧ m.twinOf o = some o ∧ o.bad = false ∧ o.hash = slice o.hash 0 32) ∧
    (let o := digestOf (dg 7); let t : Digest := { o with hash := [1] }; let m : Mach := { emits (some o) 0 with pair := { (emits (some o) 0).pair with twins := [t] } }
     m.twinOf o = some t ∧ t.bad = false ∧ t.hash ≠ slice o.hash 0 32 ∧ m.twinOf { o with bad := true } = some t) ∧
    (let o := digestOf (dg 7); let m := emits (some o) 10000
     m.pair.waits.find? (fun w => w.own.isSome && decide (w.sentAt + m.rd .LINK_PAIR_WAIT ≤ m.tick)) = some (waits (some o)) ∧ o.bad = false ∧ (m.wr .LINK_PAIR_STATE 3).rd .LINK_PAIR_STATE = 3 ∧
     m.rd .LINK_PAIR_STATE ≠ 3) ∧
    (let m := emits (some (digestOf (dg 7))) 9900; ∀ w ∈ m.pair.waits, w.own.isSome = true → m.tick < w.sentAt + m.rd .LINK_PAIR_WAIT) ∧
    checked.awake = true ∧ checked.rd .LINK_PAIR_STATE = 2 ∧ checked.pair.ownCheck = some .pass ∧ checked.pair.heard = none ∧
    checked.pair.checkAt + checked.rd .LINK_PAIR_GRACE ≤ checked.tick := by decide +kernel

theorem wit_LinkTimersExpire :
    (let h : HeldSeal := ⟨bankBase, 0, 1, some 0, [], 0⟩; let m : Mach := { lm with transfers := [⟨1023, 15, 65535, 0, 0, some h, none⟩] }
     m.awake = true ∧ m.transfer 1023 15 65535 = some ⟨1023, 15, 65535, 0, 0, some h, none⟩ ∧ h.limit = some 0 ∧ 0 ≤ m.tick) ∧
    (let m : Mach := { lm with transfers := [⟨0, 0, 0, 0, 0, none, some 0⟩], time := { lm.time with ns := 1000000 } }
     m.awake = true ∧ m.transfer 0 0 0 = some ⟨0, 0, 0, 0, 0, none, some 0⟩ ∧ 0 + 10000 ≤ m.tick) ∧
    (let m := (asks lm).wr .LINK_GCTL_REPLYLIM 0; let c : Issued := { kern with queue := 1, cmd := cmd 5 1 0 0 0 1 }
     m.awake = true ∧ m.sq.issued = [c] ∧ c.part = 0 ∧ c.queue = 1 ∧ c.result = none ∧ (∃ r ∈ m.requests, r.cmdId = c.id) ∧ c.tick + m.rd .LINK_GCTL_REPLYLIM ≤ m.tick) ∧
    (lm.wr .TIME_CTL_ROLE 1).rd .TIME_CTL_ROLE = 1 ∧ lm.rd .TIME_CTL_ROLE = 0 ∧ (lm.wr .TIME_SYNC_STATE 2).rd .TIME_SYNC_STATE = 2 ∧ lm.liveSources = [] ∧
    (lm.wr .TIME_SYNC_STATE 1).rd .TIME_SYNC_STATE = 1 ∧
    (let m := ({ lm with time := { lm.time with ns := 1000000000 } } : Mach).wr .TIME_SYNC_STATE 3; m.awake = true ∧ m.rd .TIME_CTL_ROLE = 0 ∧ m.rd .TIME_SYNC_STATE = 3 ∧
      m.time.sync.since + 10000000 ≤ m.tick) := by
  decide +kernel

/-- Port 15 in a state, enabled. -/
def portIn (n : Nat) : Mach := (fw.wr .LINK_STATE_STATE n 15).wr .LINK_CTL_ENABLE 1 15

theorem wit_PortsFollowTheirLinks :
    fw.resets.cold = false ∧ ([none, some 0].all (fun o => let m : Mach := { portIn 2 with txq := [⟨15, 4, { fr with typ := 0x10 }, o⟩] }; m.portUp 15 && m.nextFrame 15 == some ⟨15, 4, { fr with typ := 0x10 }, o⟩) && { fr with typ := 0x10 }.carries) = true ∧
    (portIn 1).rd .LINK_STATE_STATE 15 = 1 ∧ (portIn 2).rd .LINK_STATE_STATE 15 = 2 ∧ (portIn 0).rd .LINK_STATE_STATE 15 ≠ 1 ∧ (portIn 0).rd .LINK_STATE_STATE 15 ≠ 2 ∧
    (portIn 2).portUp 15 = true ∧ { fr with typ := 0x12 }.typ ≠ 0x10 ∧ (portIn 3).rd .LINK_STATE_STATE 15 = 3 ∧ (portIn 3).flag .LINK_CTL_HOLD 15 = false ∧ (portIn 3).plugged 15 = true ∧
    ((portIn 3).wr .LINK_CTL_HOLD 1 15).flag .LINK_CTL_HOLD 15 = true ∧ (portIn 2).serves .fw (0x03000010 + 15 * 0x10000) = true ∧ (portIn 2).flag .LINK_CTL_ENABLE 15 = true ∧
    ((portIn 2).wr .LINK_CTL_ENABLE 0 15).flag .LINK_CTL_ENABLE 15 = false ∧ (portIn 1).trains 15 = true ∧ (portIn 0).trains 15 = true ∧
    ({ portIn 3 with unplugged := [(15, true)] } : Mach).plugged 15 = false := by decide +kernel

/-- The HDM range is committed. -/
def hdm : Mach := up.wr .UCIE_STAT_HDMCOMMIT 1
/-- The same, with stack 0 granted to partition 1, which is sealed. -/
def sealedHdm : Mach := (((hdm.wr .SEC_ALLOC_BASE bankBase 1 0).wr .SEC_ALLOC_LEN (2 ^ 35) 1 0).wr .SEC_ALLOC_READ 1 1 0).wr .SEC_TENANT_CTL_SEALED 1 1

theorem wit_HostMemoryAccesses :
    up.answers .host = true ∧ (0 : Nat) ≠ 384 * 2 ^ 30 ∧ up.flag .UCIE_STAT_HDMCOMMIT = false ∧ hdm.answers .host = true ∧ hdm.flag .UCIE_STAT_HDMCOMMIT = true ∧
    (384 * 2 ^ 30 : Nat) < 384 * 2 ^ 30 - 63 + 64 ∧ (384 * 2 ^ 30 - 64 + 64 : Nat) ≤ 384 * 2 ^ 30 ∧ (384 * 2 ^ 30 - 64) % 256 + 64 ≤ 256 ∧ hdm.canon (384 * 2 ^ 30 - 64) = some (bankAddr 11 511 (2 ^ 26 - 64)) ∧
    hdm.granuleSealed (bankAddr 11 511 (2 ^ 26 - 64)) = false ∧ sealedHdm.answers .host = true ∧ sealedHdm.flag .UCIE_STAT_HDMCOMMIT = true ∧ sealedHdm.canon 0 = some bankBase ∧
    sealedHdm.granuleSealed bankBase = true := by decide +kernel

/-- Twilight, with a message for the host. -/
def twi : Mach := let m := up.wr .RST_MODE_TWILIGHT 1; { m with trust := { m.trust with mailOut := [[1]] } }

theorem wit_HostPortMessagesAndModules :
    up.answers .host = true ∧ up.resets.cold = false ∧ up.twilight = false ∧ twi.twilight = true ∧ twi.trust.mailOut = [1] :: [] ∧ (up.wr .RST_MODE_TWILIGHT 1).trust.mailOut = [] ∧
    up.awake = true ∧ ((((up.wr .UCIE_MOD_STATE 2 0).wr .UCIE_MOD_STATE 3 3).post ⟨0, 0, 0, 5, 3, fkUcieMod⟩).setMods).hostUp = true ∧
    (((up.wr .UCIE_MOD_STATE 3 3).post ⟨0, 0, 0, 5, 3, fkUcieMod⟩).setMods).hostUp = false ∧ up.hostUp = true := by decide +kernel

/-- Slot 5's seal entry in stack 0 shows version 1 of partition 0; expander 0 serves it. -/
def far : Mach :=
  let m := (((fw.wr .FARCXL_SEALTAB_BASE bankBase).wr .FARCXL_SEALTAB_SLOTS 64).wr .FARCXL_EXP_GIB 1 0).wr .FARCXL_EXP_STATE 2 0
  { m with mem := [(bankBase + 160, 1)], written := [(0, true)] }
/-- With an access to it by partition p. -/
def farOp (p : Nat) (k : FarKind) : FarOp := ⟨0, 0, 0, p, k, 5, 0, 0, [], if k = .copyWrite then 2 ^ 8192 - 1 else 0⟩
def farWith (p : Nat) (k : FarKind) : Mach := { far with farOps := [farOp p k] }

/-- That the tag of what an expander stored verifies is a free value (log entry 8): the clause of a read that succeeds is shown for a slot never written alone. -/
theorem wit_FarTierPort :
    fw.serves .fw 0x03180000 = true ∧ fw.flag .FARCXL_CTL_ENABLE = false ∧ fw.firmware = true ∧ up.serves .host 0x03180000 = true ∧ up.firmware = false ∧
    (fw.wr .FARCXL_CTL_ENABLE 1).flag .FARCXL_CTL_ENABLE = true ∧ fw.farOps = [] ∧ (fw.wr .FARCXL_STAT_STATE 1).rd .FARCXL_STAT_STATE = 1 ∧ fw.rd .FARCXL_CTL_BIF = 0 ∧
    fw.rd .FARCXL_STAT_GIB = 0 ∧ (⟨true, true, true, true, true, 16, true, 2 ^ 43⟩ : FarExpander).accepted = true ∧ (⟨true, true, true, false, true, 8, true, 2 ^ 30⟩ : FarExpander).accepted = false ∧
    (farOp 1 .copyWrite).reads = false ∧ (farOp 1 .copyRead).reads = true ∧
    (let k := ((((fw.wr .FARCXL_STAT_STATE 1).wr .FARCXL_EXP_WIDTH 8 0).wr .FARCXL_EXP_RATE 2 0).wr .FARCXL_EXP_STATE 3 0).post ⟨0, 0, 0, 6, 0, fkFarReject⟩; ∀ x < 4, k.rd .FARCXL_EXP_STATE x ≠ 2) ∧
    fw.rd .FARCXL_STAT_STATE ≠ 1 ∧
    ([FarKind.restore, .spill, .copyRead, .copyWrite].all (fun k => (farWith 1 k).awake && (farWith 1 k).farOldest 5 == some (farOp 1 k) && sealVersion ((farWith 1 k).sealEntry 5) == 1 &&
      (farWith 1 k).farExp 5 == some 0 && (farWith 1 k).rd .FARCXL_EXP_STATE 0 == 2)) = true ∧
    (farWith 1 .restore).farReadable 1 5 = false ∧ (let m : Mach := { farWith 0 .restore with mem := [] }; sealVersion (m.sealEntry 5) = 0) ∧ fw.rd .FARCXL_EXP_STATE 3 ≠ 2 ∧
    (let m := far.wr .FARCXL_EXP_STATE 2 3; m.rd .FARCXL_EXP_STATE 3 = 2 ∧ (∀ f ∈ m.farOps, m.farExp f.slot ≠ some 3)) := by decide +kernel

theorem wit_FaultsAreAnsweredAndHalt :
    fw.serves .fw 0x00800010 = true ∧ fw.serves .fw 0x00800018 = true ∧ (∀ q < 16, bit 32768 q = true → bit (fw.rd .FAULT_STOP_STOPPED) q = false) ∧
    bit ((fw.wr .FAULT_STOP_STOPPED 32768).rd .FAULT_STOP_STOPPED) 15 = true ∧ fw.awake = true ∧ (fw.wr .FAULT_CFG_LOCKSTEP 1).flag .FAULT_CFG_LOCKSTEP = true ∧
    bit (fw.wr .FAULT_CFG_LOCKSTEP 1).trust.mcStopped 1 = false ∧ (fw.wr .FAULT_CFG_LOCKSTEP 0).flag .FAULT_CFG_LOCKSTEP = false ∧
    bit ({ fw with trust := { fw.trust with mcStopped := 2 } } : Mach).trust.mcStopped 1 = true := by decide +kernel

/-- A row's copy on stack 11. -/
def copying (hot read : Bool) : Mach := let m := fw.setStack 11 { Stack.fresh with hot := hot }; { m with rowCopy := some ⟨11, 511, 32767, read⟩ }

theorem wit_RetirementsTakeEffect :
    fw.serves .fw 0x00800020 = true ∧ fw.rowCopy = none ∧ fw.sparesUsed 11 511 < 32 ∧ (copying true true).rowCopy ≠ none ∧ (copying true true).serves .fw 0x00800020 = true ∧
    (let m := fw.setStack 11 { Stack.fresh with sparesUsed := [(511, 32)] }; m.rowCopy = none ∧ 32 ≤ m.sparesUsed 11 511) ∧ fw.awake = true ∧
    ((copying true false).stack 11).hot = true ∧ ((copying false false).stack 11).hot = false ∧ (copying false true).rowCopy = some ⟨11, 511, 32767, true⟩ := by decide +kernel

/-- A self-check of partition 0 runs; no core of it does, or one. -/
def checking (m : Mach) : Mach := { m with selfCheck := some ⟨0, [0], false⟩ }

theorem wit_SelfChecksAndInjection :
    [CheckerPart.hub, .core 191, .stack 11, .quad 11 3, .cache 1].all checkerOk = true ∧ up.serves .host 0x00800030 = true ∧ up.firmware = false ∧ fw.firmware = true ∧ fw.serves .fw 0x00800030 = true ∧ (fw.wr .FAULT_SELF_BUSY 1).flag .FAULT_SELF_BUSY = true ∧
    fw.flag .FAULT_SELF_BUSY = false ∧ fw.serves .fw 0x00800038 = true ∧ tm.serves .fw 0x00800038 = true ∧ tm.flag .RST_MODE_TEST = true ∧ fw.flag .RST_MODE_TEST = false ∧ fw.awake = true ∧
    (fw.wr .FAULT_CFG_DIAGEN 1).flag .FAULT_CFG_DIAGEN = true ∧ (fw.wr .FAULT_CFG_DIAGEN 0).flag .FAULT_CFG_DIAGEN = false ∧ fw.selfCheck = none ∧
    (checking fw).selfCheck = some ⟨0, [0], false⟩ ∧ (checking fw).selfDrained ⟨0, [0], false⟩ = true ∧ (checking (coreM 2 (sw 1 0) (cd 0 0))).selfDrained ⟨0, [0], false⟩ = false ∧
    (let k := (((((checking fw).wr .FAULT_SELF_BUSY 0).wr .FAULT_SELF_RESULT 1).wr .FAULT_SELF_LASTDUR 0)).switchBack ⟨0, [0], false⟩; k.flag .LINK_PAIR_ENABLE = false) ∧
    (let k := ((((checking fw).wr .LINK_PAIR_ENABLE 1).wr .FAULT_SELF_RESULT 1).wr .FAULT_SELF_LASTDUR 0).switchBack ⟨0, [0], false⟩; k.flag .LINK_PAIR_ENABLE = true) := by decide +kernel

/-- Twilight, where recovery firmware comes through the mailbox. -/
def recovers (bs : Bytes) : Mach := let m := r0.wr .RST_MODE_TWILIGHT 1; { m with trust := { m.trust with mailIn := [bs] } }

/-- The same, with recovery firmware running. -/
def recovered : Mach := let m := recovers []; { m with trust := { m.trust with firmware := [1] } }

/-- A firmware image of another kind, shorter than its header: whether one verifies is a free value (log entry 8), so that the success of firmwareVerifyDone cannot be shown on a concrete image. -/
theorem wit_FirmwareIsVerifiedAndStarts :
    up.serves .host 0x00C00008 = true ∧ up.verifying = false ∧ up.firmware = false ∧ up.twilight = false ∧ fw.serves .fw 0x00C00008 = true ∧ fw.firmware = true ∧
    (recovers [1]).serves .fw 0x00C00008 = true ∧ (recovers [1]).verifying = false ∧ (recovers [1]).firmware = false ∧ (recovers [1]).twilight = true ∧
    (let m := (recovers [1]).wr .SEC_BOOT_LEN 1; m.trust.mailIn.flatten.take (m.rd .SEC_BOOT_LEN) ≠ []) ∧ (let m := (recovers []).wr .SEC_BOOT_LEN 1; m.trust.mailIn.flatten.take (m.rd .SEC_BOOT_LEN) = []) ∧
    up.awake = true ∧ (up.wr .SEC_BOOT_STATE 1).verifying = true ∧ imageFails false 0 [] = some (stAuthFail, fkFwSig) ∧
    imageFails false 2 (toBytes 4 0x4B574657 ++ [1, 1] ++ List.replicate 122 0) = some (stRollback, fkFwRollback) ∧
    fw.serves .fw 0x00C00010 = true ∧ fw.flag .SEC_BOOT_STARTED = true ∧ fw.twilight = false ∧ (up.wr .SEC_BOOT_STATE 2).serves .fw 0x00C00010 = true ∧
    (up.wr .SEC_BOOT_STATE 2).flag .SEC_BOOT_STARTED = false ∧ (up.wr .SEC_BOOT_STATE 2).twilight = false ∧ recovered.serves .fw 0x00C00010 = true ∧ recovered.flag .SEC_BOOT_STARTED = false ∧ recovered.twilight = true := by
  decide +kernel

/-- A store with an owner record: the first byte of the owner's key is set. -/
def ownedNv : NonVol := NonVol.putOpt ⟨0, []⟩ 0xF000 [1]

/-- Of a store with an owner, whether a signature holds is a free value (log entry 8): the clauses that turn on it are shown for a store without one. -/
theorem wit_OptionStoreWritesAndLoads :
    fw.serves .fw 0x00C00040 = true ∧ (65520 : Nat) < 65536 ∧
    (let m := (fw.wr .SEC_OPT_OFFSET 0).wr .SEC_OPT_LEN 16; m.flag .SEC_OPTST_BUSY = false ∧ m.optWriteOk (m.rd .SEC_OPT_OFFSET) (m.rd .SEC_OPT_LEN) = true ∧
      m.readUe false (m.rd .SEC_OPT_SRC) (m.rd .SEC_OPT_LEN) = false) ∧
    (let m := (fw.wr .SEC_OPT_OFFSET 8).wr .SEC_OPT_LEN 16; m.optWriteOk (m.rd .SEC_OPT_OFFSET) (m.rd .SEC_OPT_LEN) = false) ∧
    fw.awake = true ∧ (∀ k ∈ fw.power.convs, k.owner ≠ .option) ∧ (0xEFF0 + 16 : Nat) ≤ 0xF000 ∧ NonVol.ownerOk ⟨0, []⟩ ownedNv = true ∧
    up.hostUp = true ∧ r0.awake = true ∧ r0.hostUp = false ∧ r0.firmware = false ∧ NonVol.imageValid ⟨0, []⟩ = false ∧ NonVol.owned ⟨0, []⟩ = false := by decide +kernel

/-- A request with a purpose that does not exist is unsound; that one is sound turns on a signature, a free value (log entry 8). -/
theorem wit_SecureMessagesAreAnswered : twi.awake = true ∧ twi.twilight = true ∧ twi.keyReqOk ⟨0, 0, 0, 0, 0, [], [], []⟩ [] = false := by decide +kernel

/-- Partition 15 measures 64 bytes at the start of stack 0, with or without the right, the bytes sound or not. -/
def measures (right : Nat) (bad : List (Nat × Nat)) : Mach :=
  let m := (fw.wr .SEC_TENANT_WMEAS_BASE bankBase 15 0).wr .SEC_TENANT_WMEAS_LEN 64 15 0
  { ((m.wr .SEC_ALLOC_BASE bankBase 15 0).wr .SEC_ALLOC_LEN 4096 15 0).wr .SEC_ALLOC_READ right 15 0 with wrong := bad, written := [(0, true)] }
/-- Partition 15 imports nothing, with or without a key and the right to the destination. -/
def imports (key : Bytes) (right : Nat) : Mach :=
  let m := ((fw.wr .SEC_TENANT_IMPORT_DST bankBase 15).wr .SEC_TENANT_IMPORT_SRC (2 ^ 47) 15)
  { ((m.wr .SEC_ALLOC_BASE bankBase 15 0).wr .SEC_ALLOC_LEN 4096 15 0).wr .SEC_ALLOC_WRITE right 15 0 with keys := [(4 * 4096 + 15, key)] }

/-- That a chunk's tag fails or holds is a free value (log entry 8); an import of no chunk ends without a failure. -/
theorem wit_TenantsMeasureSealAndImport :
    (measures 1 []).serves .fw (0x00C20090 + 15 * 0x100) = true ∧ (measures 1 []).flag .SEC_TENANT_WMEASCTL_BUSY 15 = false ∧
    (∀ x ∈ (measures 1 []).measured 15, (measures 1 []).grantedTo 15 false (x.1 + x.2) 256 x.1 = true) ∧
    (measures 0 []).measured 15 = [(bankBase, 64)] ∧ (measures 0 []).grantedTo 15 false (bankBase + 64) 256 bankBase = false ∧
    (let m := (measures 1 []).wr .SEC_TENANT_WMEASCTL_BUSY 1 15; m.awake = true ∧ m.flag .SEC_TENANT_WMEASCTL_BUSY 15 = true ∧ (∀ x ∈ m.measured 15, m.readUe false x.1 x.2 = false)) ∧
    (let m := (measures 1 [(bankBase / 16, 2)]).wr .SEC_TENANT_WMEASCTL_BUSY 1 15; m.measured 15 = [(bankBase, 64)] ∧ m.readUe false bankBase 64 = true) ∧
    fw.serves .fw (0x00C20000 + 15 * 0x100) = true ∧ fw.flag .RST_MODE_TEST = false ∧ tm.flag .RST_MODE_TEST = true ∧ tm.serves .fw (0x00C20000 + 15 * 0x100) = true ∧
    fw.serves .fw 0x00C20000 = true ∧
    (imports [] 1).serves .fw (0x00C200B0 + 15 * 0x100) = true ∧ (imports [] 1).flag .SEC_TENANT_IMPORTST_BUSY 15 = false ∧ ((imports [] 1).wr .SEC_TENANT_IMPORT_LEN 64 15).key 4 15 = [] ∧
    (let m := (imports [1] 0).wr .SEC_TENANT_IMPORT_LEN 64 15; m.key 4 15 ≠ [] ∧ m.grantedTo 15 true (bankBase + 64) 256 bankBase = false) ∧
    (let m := (imports [1] 1).wr .SEC_TENANT_IMPORT_LEN 64 15; m.rd .SEC_TENANT_IMPORT_LEN 15 = 64 ∧ m.grantedTo 15 true (bankBase + 64) 256 bankBase = true ∧
      m.importSrcOk (m.rd .SEC_TENANT_IMPORT_SRC 15) (64 + 16 * ceilDiv 64 chunkLen) = true) ∧
    (let m := (imports [1] 1).wr .SEC_TENANT_IMPORTST_BUSY 1 15; m.awake = true ∧ m.flag .SEC_TENANT_IMPORTST_BUSY 15 = true ∧ (m.importAll 15).2.2 = false) := by decide +kernel

/-- The device state n is in force. -/
def stateIs (n : Nat) : Mach := r0.wr .PWR_STATE_CUR n
/-- An entry is under way, with or without a wake that waits. -/
def enters (wake : Bool) : Mach := { fw.wr .PWR_STATE_MOVING 1 with power := { fw.power with entering := true, target := 1, wakePend := wake } }

theorem wit_DeviceStatesMove :
    fw.serves .fw 0x00900008 = true ∧ (enters false).serves .fw 0x00900008 = true ∧ (let m := (enters false).wr .PWR_REQ_TARGET 2; m.flag .PWR_STATE_MOVING = true ∧ m.flag .SEC_PSW_BUSY = false) ∧
    (let m := fw.wr .PWR_REQ_TARGET 0; m.flag .PWR_STATE_MOVING = false ∧ m.rd .PWR_REQ_TARGET ≤ m.rd .PWR_STATE_CUR) ∧
    (let m := (fw.wr .SEC_PSW_BUSY 1).wr .PWR_REQ_TARGET 1; m.flag .PWR_STATE_MOVING = false ∧ m.rd .PWR_STATE_CUR < m.rd .PWR_REQ_TARGET ∧ m.refuser (m.rd .PWR_REQ_TARGET) = some (6, 0)) ∧
    (let m := fw.wr .PWR_REQ_TARGET 1; m.rd .PWR_STATE_CUR < m.rd .PWR_REQ_TARGET ∧ m.refuser 1 = none ∧ m.rd .PWR_REQ_TARGET = 1) ∧
    fw.awake = true ∧ fw.power.entering = false ∧ (enters false).power.entering = true ∧ (enters false).tick < (enters false).power.acceptedAt + 20 ∧
    (let m : Mach := { enters false with time := { (enters false).time with ns := 2000 } }; m.power.entering = true ∧ m.power.target = 1 ∧ m.power.acceptedAt + 20 ≤ m.tick) ∧
    (let k := (((enters false).enterState 1).wr .PWR_STATE_CUR 1).wr .PWR_STATE_MOVING 0; k.power.wakePend = false) ∧
    (let k := (((enters true).enterState 1).wr .PWR_STATE_CUR 1).wr .PWR_STATE_MOVING 0; k.power.wakePend = true) ∧
    (fw.wr .PWR_WAKE_PIN 1).flag .PWR_WAKE_PIN = true ∧ (fw.wr .PWR_WAKE_PIN 0).flag .PWR_WAKE_PIN = false ∧
    (let m := ({ fw with time := { fw.time with ns := 500 } } : Mach).wr .PWR_WAKE_AT 5; m.rd .PWR_WAKE_AT ≠ 0 ∧ m.passed (m.rd .PWR_WAKE_AT) = true) ∧ fw.rd .PWR_WAKE_AT = 0 ∧
    (stateIs 3).awake = true ∧ (stateIs 3).power.entering = false ∧ (stateIs 3).rd .PWR_STATE_CUR ≠ 0 ∧ (stateIs 3).power.dawnAt = none ∧ fw.rd .PWR_STATE_CUR = 0 := by decide +kernel

/-- Dawn at a stage, from a state, with so many failed attempts. -/
def dawn (stage cur fails : Nat) : Mach :=
  let m := (r0.wr .PWR_STATE_DAWNSTAGE stage).wr .PWR_STATE_CUR cur
  { m with power := { m.power with dawnAt := some 0, dawnFails := fails } }

theorem wit_DawnRunsItsStages :
    ([0, 1, 2, 3, 4].all (fun n => (dawn n 2 0).awake && (dawn n 2 0).power.dawnAt == some 0 && (dawn n 2 0).rd .PWR_STATE_DAWNSTAGE == n && (dawn n 2 0).rd .PWR_STATE_CUR != 3)) = true ∧
    (dawn 4 3 0).rd .PWR_STATE_CUR = 3 ∧ (dawn 4 3 0).rd .PWR_STATE_DAWNSTAGE = 4 ∧ (dawn 1 2 0).power.stageAt + stageLimit 2 1 ≤ ({ dawn 1 2 0 with time := { (dawn 1 2 0).time with ns := 100000 } } : Mach).tick ∧ (dawn 1 2 0).tick < (dawn 1 2 0).power.stageAt + stageLimit 2 1 ∧
    (0 + 15000 ≤ ({ dawn 0 2 0 with time := { (dawn 0 2 0).time with ns := 1500000 } } : Mach).tick) ∧ (dawn 1 2 0).power.dawnFails = 0 ∧ (dawn 1 2 1).power.dawnFails ≠ 0 ∧ fw.awake = true ∧
    fw.power.dawnAt = none := by decide +kernel

/-- The guard armed, below its release level since a time. -/
def guarded (since : Option Nat) : Mach :=
  let m := ({ fw with time := { fw.time with ns := 100000 } } : Mach).wr .PWR_GUARD_ACTIVE 1 |>.wr .PWR_GUARD_RELEASE 500
  { m with power := { m.power with belowFrom := since } }

theorem wit_ConversionsAndThePowerGuard :
    fw.answers .fw = true ∧ up.answers .host = true ∧ fw.awake = true ∧ fw.resets.cold = false ∧ fw.power.convs = [] ∧
    ({ fw with power := { fw.power with convs := [⟨[23], .now 23 .host, 0⟩] } } : Mach).power.convs = [⟨[23], .now 23 .host, 0⟩] ∧ (0 + 400 ≤ ({ fw with time := { fw.time with ns := 40000 } } : Mach).tick) ∧ fw.flag .PWR_GUARD_ACTIVE = false ∧
    max (fw.rd .PWR_GUARD_LIMIT) (fw.rd .PWR_GUARD_RELEASE) < 1000000 ∧ (0 : Nat) ≤ max (fw.rd .PWR_GUARD_LIMIT) (fw.rd .PWR_GUARD_RELEASE) ∧
    (guarded none).flag .PWR_GUARD_ACTIVE = true ∧ (guarded none).rd .PWR_GUARD_RELEASE ≤ 500 ∧ 499 < (guarded none).rd .PWR_GUARD_RELEASE ∧ (guarded none).power.belowFrom = none ∧
    (guarded (some 0)).power.belowFrom = some 0 ∧ 0 + 100000 ≤ (guarded (some 0)).time.ns ∧ (guarded (some 1)).power.belowFrom = some 1 ∧ (guarded (some 1)).time.ns < 1 + 100000 := by decide +kernel

theorem wit_TripsHaltOrFence : fw.resets.cold = false ∧ fw.flag .PWR_STATE_MOVING = false ∧ (fw.wr .PWR_STATE_MOVING 1).resets.cold = false ∧ (fw.wr .PWR_STATE_MOVING 1).flag .PWR_STATE_MOVING = true ∧ fw.awake = true ∧ fw.rd .PWR_STATE_CUR ≠ 3 ∧ (stateIs 3).awake = true ∧ (stateIs 3).rd .PWR_STATE_CUR = 3 := by decide +kernel

theorem wit_ColdResetAndStart :
    fw.resets.cold = false ∧ (10000 : Nat) ≤ 10000 ∧ fw.rd .PWR_STATE_CUR ≠ 3 ∧ cold.resets.cold = true ∧ (stateIs 3).rd .PWR_STATE_CUR = 3 ∧ (1999 : Nat) < 2000 ∧ r0.awake = true ∧
    r0.hostUp = false ∧ r0.firmware = false ∧ r0.twilight = false ∧ [CheckerPart.hub].all checkerOk = true ∧ (startupTest [.hub] r0).resets.startFail = true ∧
    (startupTest [.core 191] r0).resets.startFail = false ∧ up.awake = true ∧ up.hostUp = true := by decide +kernel

/-- Warm reset since time 0, at a time. -/
def warmAt (ns : Nat) : Mach := { warm with time := { warm.time with ns := ns } }

theorem wit_WarmResetAndLateStart :
    fw.serves .fw 0x00B00000 = true ∧ fw.resets.warm = none ∧ (warmAt 19999).resets.warm = some 0 ∧ (warmAt 19999).time.ns < 0 + 20000 ∧ 0 + 20000 ≤ (warmAt 20000).time.ns ∧
    fw.awake = true ∧ fw.flag .SEC_BOOT_STARTED = true ∧ (r0.time.ns : Int) < r0.trust.releaseNs + 2000000000 ∧
    (let m : Mach := { r0 with time := { r0.time with ns := 2000000000 } }; m.awake = true ∧ m.flag .SEC_BOOT_STARTED = false ∧ m.rd .SEC_BOOT_STATE ≠ 4 ∧
      m.trust.releaseNs + 2000000000 ≤ (m.time.ns : Int)) := by decide +kernel

/-- The copy's drift is a free value (log entry 28); whatever it is, the copy's resuming leaves the resets in progress as they are. -/
theorem wit_WarmResetAndLateStart_release : ((warmAt 20000).resumeCopy 0).resets.lateDue = false := by
  have fold : ∀ (f : Mach → Nat → Mach), (∀ m n, (f m n).resets = m.resets) → ∀ (l : List Nat) (m : Mach), (l.foldl f m).resets = m.resets := by
    intro f hf l
    induction l with
    | nil => exact fun _ => rfl
    | cons n l ih => exact fun m => (ih (f m n)).trans (hf m n)
  have step : ∀ (m : Mach) (t : Nat), (m.stepTime t).resets = m.resets := by
    intro m t
    have h := fold (fun k n => if realigns (k.stack n).hot m.time.ns t then k.setB .TIME_REFR_REALIGN n else k) (fun k n => by split <;> rfl) (List.range 12) m
    generalize hl : List.range 12 = l at h
    simp only [Mach.stepTime, hl]
    exact h
  exact congrArg Resets.lateDue (step _ _)

/-- Units in reset. -/
def inReset (us : List (Nat × Nat)) : Mach := { fw with resets := { fw.resets with units := us } }

theorem wit_PartitionsUnitsAndTestMode :
    fw.serves .fw 0x00B00020 = true ∧
    (let m : Mach := { fw.wr .RST_PART_MASK 32768 with resets := { fw.resets with parts := [3] } }; m.partResetBusy = true) ∧
    (let m := fw.wr .RST_PART_MASK 32768; m.partResetBusy = false ∧ setBits 16 (m.rd .RST_PART_MASK) = [15] ∧ m.inSwitch 15 = false) ∧
    (let m : Mach := { (fw.wr .SEC_PSW_BUSY 1).wr .RST_PART_MASK 32768 with switch := { fw.switch with out := 0, inn := 15 } }
     m.serves .fw 0x00B00020 = true ∧ m.partResetBusy = false ∧ setBits 16 (m.rd .RST_PART_MASK) = [15] ∧ m.inSwitch 15 = true) ∧
    fw.serves .fw 0x00B00028 = true ∧ unitOk 0 192 = false ∧ unitOk 2 0 = false ∧ unitOk 0 191 = true ∧ unitOk 1 11 = true ∧ unitOk 4 15 = true ∧ (portIn 2).flag .LINK_CTL_ENABLE 15 = true ∧
    (inReset [(0, 3)]).awake = true ∧ (inReset [(0, 3)]).resets.units = (0, 3) :: [] ∧ (inReset [(4, 15)]).resets.units = (4, 15) :: [] ∧ (inReset [(4, 15)]).portUp 15 = false ∧
    fw.serves .fw 0x00B00018 = true ∧ fw.lockdown = false ∧ (∀ k < 256, fw.flag .SEC_KEYST_VALID k = false) ∧
    (fw.wr .SEC_TENANT_CTL_SEALED 1 15).lockdown = true ∧ (fw.wr .SEC_KEYST_VALID 1 255).flag .SEC_KEYST_VALID 255 = true := by decide +kernel

theorem wit_HostWritesAreLimited :
    (fw.answers .host = true ∧ fw.hostMay 0x00C00010 = false ∧ fw.firmware = true) ∧ (0x00C00017 : Nat) < 0x00C00018 ∧ (0x00C7FFFF : Nat) < 0x00C80000 ∧
    (let m := fw.wr .SEC_TENANT_CTL_SEALED 1 15; m.isSealed 15 = true ∧ m.lockdown = true ∧ seqrOpen 0x4F7 = false ∧ seqrOpen 0xFFFF = false) ∧ (0x007FFFFF : Nat) < 0x00800000 := by decide +kernel

/-! ## Single steps and worked examples of the spec -/

/-- The state after a command, or reset's where it stops. -/
def after (i : Instr) (m : Mach) : Mach := match exec i (st m) with | .next t => t.m | _ => r0

/-- 03: page 5 of bank 300 of stack 7 lies at 0x503C_B000_A000, and its striped alias is granule 82,316 of the stack. -/
theorem test_page_addresses : bankAddr 7 300 (5 * 0x2000) = 0x503CB000A000 ∧ stripedOf 0x503CB000A000 = 7 * 2 ^ 35 + 82316 * 256 := by decide

/-- 06: weights 5, −3, −8 read as 4.5, −3.5, −7.5 at shed level 1. -/
theorem test_shed_weights : [5, 13, 8].map (fun w => rne32 (elemVal 0x14 4 w)) = [0x40A00000, 0xC0400000, 0xC1000000] ∧
    [5, 13, 8].map (fun w => rne32 (elemVal 0x14 3 w)) = [0x40900000, 0xC0600000, 0xC0F00000] := by decide +kernel

/-- 06: the block's sum is −14.25 with full planes, its accumulator −1.3359375, which a drain at scale 0.5 writes as BF16 0xBF2B and E4M3 0xB3. -/
theorem test_block_of_a_projection :
    let s := blockSum [(elemVal 0 0 0x3FC00000, elemVal 0x14 4 5), (elemVal 0 0 0xBF400000, elemVal 0x14 4 13), (elemVal 0 0 0x40400000, elemVal 0x14 4 8)]
    rne32 s = 0xC1640000 ∧ accumulate 0 (e4m3Val 0x1C) s = 0xBFAB0000 ∧ rneBf16 ((fp32Val 0xBFAB0000).mul (fp32Val 0x3F000000)) = 0xBF2B ∧
    toE4M3 ((fp32Val 0xBFAB0000).mul (fp32Val 0x3F000000)) = 0xB3 := by decide +kernel

/-- An allocation entry of partition 1, readable and writable. -/
def alloc (a base len : Nat) : Mach := (((r0.wr .SEC_ALLOC_BASE base 1 a).wr .SEC_ALLOC_LEN len 1 a).wr .SEC_ALLOC_READ 1 1 a).wr .SEC_ALLOC_WRITE 1 1 a
/-- The words of a descriptor of two dimensions, or of one where the second is empty. -/
def words (w0 off pstride scaleoff : Nat) (dims : List (Nat × Nat × Nat)) : List Nat :=
  let l := [w0, off, pstride, scaleoff] ++ (dims.map (fun d => [d.1 + d.2.1 * 2 ^ 40, d.2.2 + d.2.2 * 2 ^ 32])).flatten
  l ++ List.replicate (16 - l.length) 0

/-- 07: the weight slice of the worked example, accepted with handle 0x0001_1000; with a tile of 48 it is refused. -/
theorem test_weight_slice :
    words 0x105403 0 196608 786432 [(1, 256, 256), (256, 64, 6144)] =
      [0x105403, 0, 0x30000, 0xC0000, 0x0001000000000001, 0x0000010000000100, 0x0000400000000100, 0x0000180000001800, 0, 0, 0, 0, 0, 0, 0, 0] ∧
    (alloc 3 0x700000AE6000 811008).validate 1 (words 0x105403 0 196608 786432 [(1, 256, 256), (256, 64, 6144)]) = stOk ∧ handleOf 1 0 1 = 0x11000 ∧
    (alloc 3 0x700000AE6000 811008).validate 1 (words 0x105403 0 196608 786432 [(1, 256, 256), (256, 48, 6144)]) = stDescTile := by decide +kernel

/-- 07: the output slice and the reversed vector are accepted; one byte lower the vector leaves its allocation; overlapping rows of a write alias. -/
theorem test_descriptor_verdicts :
    (alloc 0 0 50331648).validate 1 (words 0x14100 2560 0 0 [(1, 256, 256), (6144, 1, 4096)]) = stOk ∧
    (alloc 0 0 4096).validate 1 (words 0x2000 4092 0 0 [(2 ^ 40 - 1, 0, 1024)]) = stOk ∧
    (alloc 0 0 4096).validate 1 (words 0x2000 4088 0 0 [(2 ^ 40 - 1, 0, 1024)]) = stDescRange ∧
    (alloc 0 0 4096).validate 1 (words 0x14200 0 0 0 [(2, 0, 3), (3, 0, 2)]) = stDescAlias ∧
    (alloc 0 0 50331648).validate 1 (words 0x14100 0 0 0 [(1, 0, 256), (200, 0, 4096)]) = stDescAlias := by decide +kernel

/-- R124: sc.sar shifts by sB mod 64 and keeps the sign; sc.cmplt is signed; sc.mul keeps 64 bits and takes three cycles. -/
theorem test_scalar_results :
    ((after (.scSar 0) (coreM 2 (sw 0xA 0) (cd (2 ^ 64 - 8) 65))).coreD 0).s 5 = BitVec.ofNat 64 (2 ^ 64 - 4) ∧
    ((after (.scCmplt 0) (coreM 2 (sw 0xD 0) (cd (2 ^ 64 - 1) 1))).coreD 0).s 5 = 1 ∧
    ((after (.scMul 0) (coreM 2 (sw 4 0) (cd (2 ^ 63) 2))).coreD 0).pend.map (fun x => (x.val, x.due)) = [(0, 3)] := by decide +kernel

/-- R13: NUM keeps its value under LOCK. -/
theorem test_block_lock : (after (.registerWrite .fw 0x10 64 5) fw).rd .GLOBAL_BLOCK_NUM = 5 ∧ (after (.registerWrite .fw 0x10 64 5) (fw.wr .GLOBAL_BLOCK_LOCK 1)).rd .GLOBAL_BLOCK_NUM = 0x3FF := by
  decide +kernel

/-- R28: the tick goes to the next multiple of 100 ns. -/
theorem test_tick : (after .tickBoundary ({ warm with time := { warm.time with ns := 250 } } : Mach)).time.ns = 300 := by decide +kernel

/-- R98: a counted JUMP lowers its register and sets the head; at zero it only ends. -/
theorem test_jump :
    ((after (.jump 0 3 (cmd 0xF 3 (65536 + 40) 0 0 0)) ((qm 3).wr .SEQR_PARAM_VALUE 2 0 0)).rd .SEQR_QHEAD_HEAD 0 3) = 40 ∧
    ((after (.jump 0 3 (cmd 0xF 3 (65536 + 40) 0 0 0)) ((qm 3).wr .SEQR_PARAM_VALUE 2 0 0)).rd .SEQR_PARAM_VALUE 0 0) = 1 ∧
    ((after (.jump 0 3 (cmd 0xF 3 (65536 + 40) 0 0 0)) (qm 3)).rd .SEQR_QHEAD_HEAD 0 3) = 1 := by decide +kernel

/-- R76: signed minimum and compare-and-swap. -/
theorem test_atomics : amoResult 1 false 0xFFFFFFFF 5 0 = 0xFFFFFFFF ∧ amoResult 3 false 0xFFFFFFFF 5 0 = 5 := by decide

/-- The table gives no row any bits: no word spells a command. -/
theorem test_no_words : decodeTableWord 64 0 = none ∧ State.reset.withFetchWord 64 0 = State.reset := by decide

end Sys2Proof.Tests
end

section
/-! PROOFS. Accesses that R11 refuses: of a wrong width, or not naturally aligned. -/
namespace Sys2Proof.Machine

/-- R11 refuses every access of another width than 32 or 64 bits, and every one that is not naturally aligned. -/
theorem accessOk_eq_false {off width : Nat} (h : (width ≠ 32 ∧ width ≠ 64) ∨ off % (width / 8) ≠ 0) : accessOk off width = false := by
  obtain ⟨h32, h64⟩ | halign := h
  · simp [accessOk, h32, h64]
  · simp [accessOk, halign]

/-- A refused access is answered and counted, and that is all. -/
theorem Mach.badRequest_eq (m : Mach) (off : Nat) : m.badRequest off = (m.emit (.unsupported off)).inc .GLOBAL_BADACC_COUNT := rfl

/-- A refused write, once it is answered, whatever its sender has a right to. -/
theorem rowRegisterWrite_of_not_accessOk {m : Mach} {who : Requester} {off width : Nat} (v : Nat) (hbad : accessOk off width = false)
    (hans : m.answers who = true) : rowRegisterWrite who off width v m = m.badRequest off := by
  simp only [rowRegisterWrite, hbad, Bool.false_eq_true, if_false]
  exact Mach.access_served _ _ rfl hans

/-- A refused read, once it is answered. -/
theorem rowRegisterReadClear_of_not_accessOk {m : Mach} (nv : NonVol) {who : Requester} {off width : Nat} (hbad : accessOk off width = false)
    (hans : m.answers who = true) : rowRegisterReadClear nv who off width m = m.badRequest off := by
  rw [rowRegisterReadClear, Mach.access_served _ _ rfl hans]
  simp [regRead, hbad]

/-- REGISTER_WRITE does what its row does; an access that R11 refuses blows no fuses. -/
theorem exec_registerWrite_of_not_accessOk {s : State} {who : Requester} {off width : Nat} (v : Nat) (hbad : accessOk off width = false) :
    exec (.registerWrite who off width v) s = .next (s.onMach (rowRegisterWrite who off width v)) := by
  change execRegisterWrite who off width v s = _
  simp [execRegisterWrite, hbad, State.onMach]

/-- REGISTER_READ_CLEAR does what its row does. -/
theorem exec_registerReadClear (s : State) (who : Requester) (off width : Nat) :
    exec (.registerReadClear who off width) s = .next (s.onMach (rowRegisterReadClear s.nv who off width)) := rfl

/-- Settles O11: an access that R11 refuses reaches `badRequest` before anything is asked of its offset, in both directions. -/
theorem unsupportedAccessesHaveNoEffect : Obligations.UnsupportedAccessesHaveNoEffect := by
  intro s who off width v hform hans
  have hbad : accessOk off width = false := accessOk_eq_false hform
  constructor
  · rw [exec_registerWrite_of_not_accessOk v hbad]
    simp only [State.onMach, rowRegisterWrite_of_not_accessOk v hbad hans, Mach.badRequest_eq]
  · rw [exec_registerReadClear]
    simp only [State.onMach, rowRegisterReadClear_of_not_accessOk s.nv hbad hans, Mach.badRequest_eq]

end Sys2Proof.Machine
end

section
/-! PROOFS. Reads of TIME_NOW, whole and by halves (R29). -/
namespace Sys2Proof.Machine

/-- The word at TIME_NOW's offset is the time base alone. -/
theorem wordAt_timeNow : wordAt 0x00100000 = some ([.TIME_NOW_NS], 0, 0) := rfl

/-- TIME_NOW lies in the window of no core, and so in that of no spare or retired one. -/
theorem Mach.coreHidden_timeNow (m : Mach) : m.coreHidden 0x00100000 = false := by simp [Mach.coreHidden]

/-- The field's value is the time base. -/
theorem Mach.fieldValue_timeNow (m : Mach) (nv : NonVol) : m.fieldValue nv .TIME_NOW_NS 0 0 = m.time.ns := rfl

/-- The word of TIME_NOW is the time base in 64 bits. -/
theorem Mach.readWord_timeNow (m : Mach) (nv : NonVol) (who : Requester) : m.readWord nv who 0x00100000 = m.time.ns % 2 ^ 64 := by
  have hwidth : Fld.TIME_NOW_NS.width = 64 := rfl
  have hlo : Fld.TIME_NOW_NS.info.lo = 0 := rfl
  simp [Mach.readWord, wordAt_timeNow, Mach.coreHidden_timeNow, Mach.fieldValue_timeNow, hwidth, hlo, trunc]

/-- A 64-bit read of TIME_NOW gives the time base; no field of the word clears when read. -/
theorem regRead_timeNow (nv : NonVol) (who : Requester) (m : Mach) :
    regRead nv who 0x00100000 64 m = m.emit (.regRead 0x00100000 64 (m.time.ns % 2 ^ 64)) := by
  have hacc : Fld.TIME_NOW_NS.info.access = .ro := rfl
  simp [regRead, accessOk, Mach.readWord_timeNow, wordAt_timeNow, hacc]

/-- A 32-bit read at TIME_NOW's offset is one of its low half. -/
theorem regRead_timeNow_low (nv : NonVol) (who : Requester) (m : Mach) : regRead nv who 0x00100000 32 m = timeLowRead who m := by
  simp [regRead, accessOk]

/-- A 32-bit read four bytes on is one of its high half. -/
theorem regRead_timeNow_high (nv : NonVol) (who : Requester) (m : Mach) : regRead nv who 0x00100004 32 m = timeHighRead who m := by
  simp [regRead, accessOk]

/-- The high half after a low-half read: the latched value goes out and the latch is dropped. -/
theorem timeHighRead_latched {who : Requester} {m : Mach} {h : Nat} (hl : m.time.latch who = some h) :
    timeHighRead who m = ({ m with time := m.time.setLatch who none } : Mach).emit (.regRead 0x00100004 32 h) := by
  simp [timeHighRead, hl]

/-- The high half without a low-half read before it: the current one goes out. -/
theorem timeHighRead_unlatched {who : Requester} {m : Mach} (hl : m.time.latch who = none) :
    timeHighRead who m = ({ m with time := m.time.setLatch who none } : Mach).emit (.regRead 0x00100004 32 (m.time.ns / 2 ^ 32 % 2 ^ 32)) := by
  simp [timeHighRead, hl]

/-- An answered access that anyone may make does what its row does. -/
theorem State.does_access_anyone {s : State} {who : Requester} (i : Instr) (f : Mach → Mach) (hans : s.m.answers who = true) :
    State.does (fun m => m.access who i anyone f) s = .next (s.onMach f) := by
  simp only [State.does, State.onMach, Mach.access_served (g := anyone) i f rfl hans]

/-- REGISTER_READ_CLEAR, answered, reads the register. -/
theorem exec_registerReadClear_answered {s : State} {who : Requester} (off width : Nat) (hans : s.m.answers who = true) :
    exec (.registerReadClear who off width) s = .next (s.onMach (regRead s.nv who off width)) :=
  State.does_access_anyone _ _ hans

/-- TIME_NOW_LOW_READ, answered, reads the low half. -/
theorem exec_timeNowLowRead_answered {s : State} {who : Requester} (hans : s.m.answers who = true) :
    exec (.timeNowLowRead who) s = .next (s.onMach (timeLowRead who)) :=
  State.does_access_anyone _ _ hans

/-- Settles O12: each form of the read reaches its own branch of `regRead`, and the high half is told apart by the requester's latch. -/
theorem timeNowReadsAreConsistent : Obligations.TimeNowReadsAreConsistent := by
  intro s who hans
  refine ⟨?whole, ?low, fun h hl => ?latched, fun hl => ?unlatched⟩
  case whole => simp only [exec_registerReadClear_answered _ _ hans, State.onMach, regRead_timeNow]
  case low =>
    intro c hc
    obtain rfl | rfl : c = .timeNowLowRead who ∨ c = .registerReadClear who 0x00100000 32 := by simpa using hc
    · exact exec_timeNowLowRead_answered hans
    · simp only [exec_registerReadClear_answered _ _ hans, State.onMach, regRead_timeNow_low, timeLowRead]
  case latched => simp only [exec_registerReadClear_answered _ _ hans, State.onMach, regRead_timeNow_high, timeHighRead_latched hl]
  case unlatched => simp only [exec_registerReadClear_answered _ _ hans, State.onMach, regRead_timeNow_high, timeHighRead_unlatched hl]

end Sys2Proof.Machine
end

section
/-! PROOFS. The anti-rollback fuses: what each command leaves of the non-volatile state, and SEC_ARB written and read (R357). -/
namespace Sys2Proof.Machine

/-! ## What a command leaves of the non-volatile state -/

/-- A change of the block alone leaves the non-volatile state. -/
theorem State.does_nv {f : Mach → Mach} {s t : State} (h : State.does f s = .next t) : t.nv = s.nv := by
  cases h
  rfl

/-- So does one that asks first whether its units exist. -/
theorem State.run_nv {ok : Bool} {f : Mach → Mach} {s t : State} (h : State.run ok f s = .next t) : t.nv = s.nv := by
  cases ok
  · cases h
  · exact State.does_nv h

/-- A cold reset, where the model answers it, leaves the non-volatile state. -/
theorem execColdResetAssert_nv {cause : ColdCause} {s t : State} (h : execColdResetAssert cause s = .next t) : t.nv = s.nv := by
  unfold execColdResetAssert at h
  split_ifs at h
  split at h
  · cases h
    rfl
  · cases h

/-- A write of ADVANCE leaves the fuses, or advances them by some target and SVN. -/
theorem NonVol.advanceBy_cases (nv : NonVol) (m : Mach) (who : Requester) (target : Nat) :
    nv.advanceBy m who target = nv ∨ ∃ target' svn, nv.advanceBy m who target = nv.advance target' svn := by
  rw [NonVol.advanceBy]
  split_ifs
  · exact .inr ⟨target, _, rfl⟩
  · exact .inl rfl

/-- A register write leaves the non-volatile state, or advances the fuses. -/
theorem execRegisterWrite_nv {who : Requester} {off width v : Nat} {s t : State} (h : execRegisterWrite who off width v s = .next t) :
    t.nv = s.nv ∨ ∃ target svn, t.nv = s.nv.advance target svn := by
  cases h
  dsimp only
  split_ifs
  · exact NonVol.advanceBy_cases ..
  · exact .inl rfl

/-- The end of an option-store write leaves the fuses. -/
theorem optionDone_arb (nv : NonVol) (m : Mach) : (optionDone nv m).1.arb = nv.arb := by
  simp only [optionDone, NonVol.afterWrite]
  split
  · rfl
  · split_ifs <;> rfl

/-- The end of an option-store write, as a command, leaves the fuses. -/
theorem execOptionStoreWriteDone_arb {s t : State} (h : execOptionStoreWriteDone s = .next t) : t.nv.arb = s.nv.arb := by
  rw [execOptionStoreWriteDone] at h
  split_ifs at h
  · cases h
    exact optionDone_arb s.nv s.m
  · cases h
    rfl

/-- A command leaves the fuse count, or it advances the fuses by some target and SVN. The commands without a unit's number always answer; all the others first ask whether their units exist. -/
theorem exec_arb {i : Instr} {s t : State} (h : exec i s = .next t) : t.nv.arb = s.nv.arb ∨ ∃ target svn, t.nv = s.nv.advance target svn := by
  cases i with
  | registerWrite who off width v => exact (execRegisterWrite_nv h).imp_left (congrArg _)
  | arbAdvance who target =>
    cases h
    exact (NonVol.advanceBy_cases ..).imp_left (congrArg _)
  | optionStoreWriteDone => exact .inl (execOptionStoreWriteDone_arb h)
  | coldResetAssert cause => exact .inl (congrArg _ (execColdResetAssert_nv h))
  | registerReadClear | globalBlockLock | timeNowLowRead | timeCtlLoad | timeRoleWrite | tickBoundary | switchPhaseComplete
  | syncSendTimer | syncSilenceTimeout | holdoverTimeout | digestReady | pairWaitExpiry | pairGraceExpiry
  | cxlMemRead | cxlMemWrite | hdmCommit | sidebandIdentity | sidebandTemperature | mailboxWrite | mailboxRead | identifyMemoryDevice
  | getSupportedLogs | getLog | getHealthInfo | mailboxUnsupported | doeDiscovery | cdatRead
  | farPortEnable | farPortUp | farAccessComplete | farAccessTimeout | lockstepMismatch | faultStopClear | rowCopySlot
  | selfCheckGo | faultInjArm | firmwareBootGo | firmwareVerifyDone | firmwareStarted | optionStoreWrite | optionLoad
  | powerStateRequest | stateEntryDone | wakePin | wakeTimer | hostWakeRequest | dawnStageReady | dawnStageTimeout | dayReached
  | powerGuardSample | conversionDone | coldResetRelease | warmResetRequest | warmResetRelease | startTimeout | partitionReset
  | unitReset | unitResetRelease | testModeEnter | ucieTrainingDone | linkLevelRetry => exact .inl (congrArg _ (State.does_nv h))
  | _ => exact .inl (congrArg _ (State.run_nv h))

/-! ## The count only rises -/

/-- An advance never lowers the count, and never takes it past 128. -/
theorem NonVol.advance_rises {nv : NonVol} (h : nv.arb ≤ 128) (target svn : Nat) :
    (nv.advance target svn).arb ≤ 128 ∧ nv.arb ≤ (nv.advance target svn).arb := by
  simp only [NonVol.advance]
  split_ifs <;> omega

/-- A command keeps the count within the 128 fuses, and never lowers it. -/
theorem exec_fuses_rise {i : Instr} {s t : State} (hok : s.fusesOk) (h : exec i s = .next t) : t.fusesOk ∧ s.nv.arb ≤ t.nv.arb := by
  rw [State.fusesOk]
  obtain hkept | ⟨target, svn, hadv⟩ := exec_arb h
  · rw [hkept]
    exact ⟨hok, le_rfl⟩
  · rw [hadv]
    exact NonVol.advance_rises hok target svn

/-- And so does a step: it runs a command, or idles. -/
theorem step_fuses_rise {s t : State} (hok : s.fusesOk) (h : step s = .next t) : t.fusesOk ∧ s.nv.arb ≤ t.nv.arb := by
  rw [step] at h
  split at h
  · cases h
    exact ⟨hok, le_rfl⟩
  next c rest _ => exact exec_fuses_rise (s := { s with pending := rest }) hok h

/-! ## ADVANCE written -/

/-- Firmware whose write of SEC_ARB is served advances the fuses to its target, as far as the running SVN. -/
theorem NonVol.advanceBy_served {nv : NonVol} {m : Mach} (h : m.serves .fw arbOffset = true) (target : Nat) :
    nv.advanceBy m .fw target = nv.advance target (m.rd .SEC_BOOT_SVN) := by
  simp only [Mach.serves, Mach.answers, Bool.and_eq_true] at h
  obtain ⟨⟨hawake, hruns⟩, hreach⟩ := h
  exact if_pos ⟨rfl, hawake, hruns, hreach⟩

/-- ARB_ADVANCE, served, advances the fuses and does nothing else. -/
theorem exec_arbAdvance_served {s : State} (h : s.m.serves .fw arbOffset = true) (target : Nat) :
    exec (.arbAdvance .fw target) s = .next { s with nv := s.nv.advance target (s.m.rd .SEC_BOOT_SVN) } := by
  change execArbAdvance .fw target s = _
  simp only [execArbAdvance, NonVol.advanceBy_served h, State.onMach, Mach.accessAt_served _ _ h, id]

/-- The bits of ADVANCE in a word that holds nothing else. -/
theorem bits_advance {target : Nat} (h : target < 256) : bits (target * 2 ^ 16) 23 16 = target := by
  rw [bits, Nat.mul_div_cancel _ (by decide)]
  exact Nat.mod_eq_of_lt h

/-- A register write of ADVANCE, served, advances the fuses. -/
theorem exec_registerWrite_advance {s : State} (h : s.m.serves .fw arbOffset = true) {target : Nat} (ht : target < 256) :
    ∃ t, exec (.registerWrite .fw arbOffset 64 (target * 2 ^ 16)) s = .next t ∧ t.nv = s.nv.advance target (s.m.rd .SEC_BOOT_SVN) := by
  refine ⟨_, rfl, ?_⟩
  have hacc : accessOk arbOffset 64 = true := rfl
  simp only [hacc, and_self, if_true, bits_advance ht, NonVol.advanceBy_served h]

/-! ## COUNT read -/

/-- The word of SEC_ARB holds COUNT and ADVANCE. -/
theorem wordAt_arb : wordAt 0x00C00018 = some ([.SEC_ARB_COUNT, .SEC_ARB_ADVANCE], 0, 0) := rfl

/-- SEC_ARB lies in the window of no core. -/
theorem Mach.coreHidden_arb (m : Mach) : m.coreHidden 0x00C00018 = false := by simp [Mach.coreHidden]

/-- COUNT reads the fuses blown. -/
theorem Mach.fieldValue_arbCount (m : Mach) (nv : NonVol) : m.fieldValue nv .SEC_ARB_COUNT 0 0 = nv.arb := rfl

/-- ADVANCE is write-only and reads 0. -/
theorem Mach.fieldValue_arbAdvance (m : Mach) (nv : NonVol) : m.fieldValue nv .SEC_ARB_ADVANCE 0 0 = 0 := rfl

/-- The word of SEC_ARB is the fuse count, which its eight bits hold. -/
theorem Mach.readWord_arb (m : Mach) {nv : NonVol} (who : Requester) (h : nv.arb ≤ 128) : m.readWord nv who 0x00C00018 = nv.arb := by
  have hwidth : Fld.SEC_ARB_COUNT.width = 8 := rfl
  have hlo : Fld.SEC_ARB_COUNT.info.lo = 0 := rfl
  have hfits : nv.arb < 256 := by omega
  simp [Mach.readWord, wordAt_arb, Mach.coreHidden_arb, Mach.fieldValue_arbCount, Mach.fieldValue_arbAdvance, hwidth, hlo, trunc, hfits]

/-- A 64-bit read of SEC_ARB gives the fuse count; no field of the word clears when read. -/
theorem regRead_arb {nv : NonVol} (who : Requester) (m : Mach) (h : nv.arb ≤ 128) :
    regRead nv who 0x00C00018 64 m = m.emit (.regRead 0x00C00018 64 nv.arb) := by
  have hcount : Fld.SEC_ARB_COUNT.info.access = .ro := rfl
  have hadvance : Fld.SEC_ARB_ADVANCE.info.access = .wo := rfl
  have hfits : nv.arb < 18446744073709551616 := by omega
  simp [regRead, accessOk, Mach.readWord_arb m who h, wordAt_arb, hcount, hadvance, Nat.mod_eq_of_lt hfits]

/-- Settles O4: a step leaves the fuse count or advances it (`exec_arb`), and an advance only raises it; a served write of ADVANCE is an advance, and a read of COUNT is one of `NonVol.arb`. -/
theorem fusesOnlyRise : Obligations.FusesOnlyRise := by
  intro s hok
  refine ⟨fun t => step_fuses_rise hok, fun hserved target => ⟨?row, ?register⟩, fun who hans => ?count⟩
  case row => exact exec_arbAdvance_served hserved target
  case register => exact exec_registerWrite_advance hserved
  case count => simp only [exec_registerReadClear_answered _ _ hans, State.onMach, regRead_arb who s.m hok]

end Sys2Proof.Machine
end

section
/-! PROOFS. Little-endian fields of a byte string, and the 64 bytes of a command (R82). -/
namespace Sys2Proof.Machine

theorem toBytes_length (n w : Nat) : (toBytes n w).length = n := by
  induction n generalizing w with
  | zero => rfl
  | succ n ih => simp [toBytes, ih]

/-- The bytes of a number spell it, where they hold it. -/
theorem ofBytes_toBytes {n w : Nat} (h : w < 256 ^ n) : ofBytes (toBytes n w) = w := by
  induction n generalizing w with
  | zero => simp_all [toBytes, ofBytes]
  | succ n ih =>
    have hrest : w / 256 < 256 ^ n := Nat.div_lt_of_lt_mul (by rwa [pow_succ'] at h)
    simp only [toBytes, ofBytes, ih hrest, BitVec.toNat_ofNat]
    omega

/-- A field at the front of a string is the number whose bytes stand there. -/
theorem field_toBytes_append {n w : Nat} (h : w < 256 ^ n) (rest : Bytes) : field (toBytes n w ++ rest) 0 n = w := by
  simp [field, slice, toBytes_length, ofBytes_toBytes h]

/-- A field past the first part of a string is one of the rest. -/
theorem field_append_right {a : Bytes} {i n : Nat} (h : a.length ≤ i) (b : Bytes) : field (a ++ b) i n = field b (i - a.length) n := by
  simp [field, slice, List.drop_append, List.drop_of_length_le h]

/-- The fields of a command's bytes, one after another: each is at the front once the parts before it are passed. -/
theorem cmdOf_cmdBytes {c : Cmd} (h : c.fits = true) : cmdOf (cmdBytes c) = c := by
  simp only [Cmd.fits, Bool.and_eq_true, decide_eq_true_eq] at h
  obtain ⟨⟨⟨⟨⟨⟨⟨⟨⟨⟨⟨⟨hop, hengine⟩, hpart⟩, hflags⟩, htag⟩, hissue⟩, hdeadline⟩, hpsel⟩, hp0⟩, hp1⟩, hp2⟩, hp3⟩, hp4⟩ := h
  have hunit : c.engine % 16 + c.part % 16 * 16 < 256 ^ 1 := by omega
  have hlast : field (toBytes 8 c.p4) 0 8 = c.p4 := by simpa using field_toBytes_append (n := 8) hp4 []
  have hengine' : (c.engine % 16 + c.part % 16 * 16) % 16 = c.engine := by omega
  have hpart' : (c.engine % 16 + c.part % 16 * 16) / 16 = c.part := by omega
  simp only [cmdOf, cmdBytes, List.append_assoc, field_append_right, toBytes_length, Nat.reduceLeDiff, Nat.reduceSub, Nat.le_refl,
    field_toBytes_append (n := 1) hop, field_toBytes_append hunit, field_toBytes_append (n := 2) hflags, field_toBytes_append (n := 4) htag,
    field_toBytes_append (n := 6) hissue, field_toBytes_append (n := 6) hdeadline, field_toBytes_append (n := 4) hpsel, field_toBytes_append (n := 8) hp0,
    field_toBytes_append (n := 8) hp1, field_toBytes_append (n := 8) hp2, field_toBytes_append (n := 8) hp3, hlast, hengine', hpart']

/-- Settles O6: each field is read back from its own bytes (`cmdOf_cmdBytes`), and the parts' lengths add up to 64. -/
theorem commandBytesSpellTheCommand : Obligations.CommandBytesSpellTheCommand := by
  intro c hfits
  refine ⟨cmdOf_cmdBytes hfits, ?length⟩
  case length => simp only [cmdBytes, List.length_append, toBytes_length]

end Sys2Proof.Machine
end

section
/-! PROOFS. The block as a whole: a step takes one command, every command that can be sent completes, who writes the non-volatile state, and what a cold reset holds (R357, R360, R398). -/
namespace Sys2Proof.Machine

/-- Settles O1: both clauses are the two branches of `step`. -/
theorem stepTakesTheFrontCommand : Obligations.StepTakesTheFrontCommand := by
  refine ⟨fun c rest s => rfl, fun s hidle => ?idle⟩
  case idle => rw [step, hidle]

/-! ## Completion -/

/-- A command without a unit's number completes and leaves the waiting queue. -/
theorem State.does_completes (f : Mach → Mach) (s : State) : ∃ t, State.does f s = .next t ∧ t.pending = s.pending := ⟨_, rfl, rfl⟩

/-- So does one whose units exist. -/
theorem State.run_completes {ok : Bool} (f : Mach → Mach) (s : State) (h : ok = true) : ∃ t, State.run ok f s = .next t ∧ t.pending = s.pending :=
  ⟨_, State.run_true f s h, rfl⟩

/-- The parts that well-formed commands name are those that the checkers know. -/
theorem checkerOk_eq_partExists : checkerOk = partExists := by
  funext x
  cases x <;> simp [checkerOk, partExists, stackOk, coreOk]

/-- And the transports likewise. -/
theorem transportOk_eq_transportExists : transportOk = transportExists := by
  funext t
  cases t <;> simp [transportOk, transportExists, portOk]

/-- A cause of cold reset that the spec defines leads to a next state. -/
theorem coldCause_isSome {cause : ColdCause} (h : undefinedPulse (.coldResetAssert cause) = false) (m : Mach) : ∃ m', coldCause cause m = some m' := by
  cases cause with
  | railLow r => exact ⟨_, rfl⟩
  | clockAbsent => exact ⟨_, rfl⟩
  | mrst ns =>
    simp only [undefinedPulse, Bool.and_eq_false_iff, decide_eq_false_iff_not] at h
    rw [coldCause]
    split_ifs
    · exact ⟨_, rfl⟩
    · omega
    · exact ⟨_, rfl⟩

/-- A cold reset of a named rail, of the clock or by a defined pulse completes. -/
theorem execColdResetAssert_completes {cause : ColdCause} (s : State) (hwf : (Instr.coldResetAssert cause).wf = true)
    (h : undefinedPulse (.coldResetAssert cause) = false) : ∃ t, execColdResetAssert cause s = .next t ∧ t.pending = s.pending := by
  obtain ⟨m', hm'⟩ := coldCause_isSome h s.m
  refine ⟨s.onMach (fun _ => m'), ?_, rfl⟩
  unfold execColdResetAssert
  rw [if_pos (by exact hwf), hm']

/-- A pulse of undefined effect stops the model. -/
theorem exec_undefinedPulse {i : Instr} (s : State) (h : undefinedPulse i = true) : exec i s = .fault .pulseUndefined := by
  unfold undefinedPulse at h
  split at h
  case h_2 => cases h
  case h_1 ns =>
    have hns : ¬ ns < 2000 ∧ ns < 10000 := by simpa using h
    change execColdResetAssert (.mrst ns) s = _
    simp [execColdResetAssert, coldCause, hns]

/-- The end of an option-store write completes, awake or not. -/
theorem execOptionStoreWriteDone_completes (s : State) : ∃ t, execOptionStoreWriteDone s = .next t ∧ t.pending = s.pending := by
  rw [execOptionStoreWriteDone]
  split_ifs <;> exact ⟨_, rfl, rfl⟩

/-- Every well-formed command but the undefined pulse completes: the commands without a unit's number always do, the others since their units exist. -/
theorem exec_completes {i : Instr} (s : State) (hwf : i.wf = true) (h : undefinedPulse i = false) : ∃ t, exec i s = .next t ∧ t.pending = s.pending := by
  cases i with
  | registerWrite => exact ⟨_, rfl, rfl⟩
  | arbAdvance => exact ⟨_, rfl, rfl⟩
  | optionStoreWriteDone => exact execOptionStoreWriteDone_completes s
  | coldResetAssert cause => exact execColdResetAssert_completes s hwf h
  | registerReadClear | globalBlockLock | timeNowLowRead | timeCtlLoad | timeRoleWrite | tickBoundary | switchPhaseComplete
  | syncSendTimer | syncSilenceTimeout | holdoverTimeout | digestReady | pairWaitExpiry | pairGraceExpiry
  | cxlMemRead | cxlMemWrite | hdmCommit | sidebandIdentity | sidebandTemperature | mailboxWrite | mailboxRead | identifyMemoryDevice
  | getSupportedLogs | getLog | getHealthInfo | mailboxUnsupported | doeDiscovery | cdatRead
  | farPortEnable | farPortUp | farAccessComplete | farAccessTimeout | lockstepMismatch | faultStopClear | rowCopySlot
  | selfCheckGo | faultInjArm | firmwareBootGo | firmwareVerifyDone | firmwareStarted | optionStoreWrite | optionLoad
  | powerStateRequest | stateEntryDone | wakePin | wakeTimer | hostWakeRequest | dawnStageReady | dawnStageTimeout | dayReached
  | powerGuardSample | conversionDone | coldResetRelease | warmResetRequest | warmResetRelease | startTimeout | partitionReset
  | unitReset | unitResetRelease | testModeEnter | ucieTrainingDone | linkLevelRetry => exact State.does_completes _ s
  | selfCheckDone failed => exact State.run_completes _ s (checkerOk_eq_partExists ▸ hwf)
  | diagTest failed => exact State.run_completes _ s (checkerOk_eq_partExists ▸ hwf)
  | startupCheckerTest failed => exact State.run_completes _ s (checkerOk_eq_partExists ▸ hwf)
  | getVersion t => exact State.run_completes _ s (transportOk_eq_transportExists ▸ hwf)
  | getCapabilities t => exact State.run_completes _ s (transportOk_eq_transportExists ▸ hwf)
  | negotiateAlgorithms t => exact State.run_completes _ s (transportOk_eq_transportExists ▸ hwf)
  | getDigests t => exact State.run_completes _ s (transportOk_eq_transportExists ▸ hwf)
  | getCertificate t => exact State.run_completes _ s (transportOk_eq_transportExists ▸ hwf)
  | challenge t => exact State.run_completes _ s (transportOk_eq_transportExists ▸ hwf)
  | getMeasurements t => exact State.run_completes _ s (transportOk_eq_transportExists ▸ hwf)
  | keyExchange t => exact State.run_completes _ s (transportOk_eq_transportExists ▸ hwf)
  | finish t => exact State.run_completes _ s (transportOk_eq_transportExists ▸ hwf)
  | endSession t => exact State.run_completes _ s (transportOk_eq_transportExists ▸ hwf)
  | vendorDefinedRequest t => exact State.run_completes _ s (transportOk_eq_transportExists ▸ hwf)
  | keyagree t => exact State.run_completes _ s (transportOk_eq_transportExists ▸ hwf)
  | _ =>
    refine State.run_completes _ s ?_
    simp_all [Instr.wf, partOk, queueOk, coreOk, stackOk, portOk, bankOk]

/-- Settles O2: a command that can be sent completes (`exec_completes`) unless it is the pulse of undefined effect, which stops the model. -/
theorem sentCommandsComplete : Obligations.SentCommandsComplete :=
  fun _ s hwf => ⟨exec_completes s hwf, exec_undefinedPulse s⟩

/-! ## Writers of the non-volatile state -/

/-- An advance that is the firmware's moves the fuses; one of any other leaves them. -/
theorem NonVol.advanceBy_arb_ne {nv : NonVol} {m : Mach} {who : Requester} {target : Nat} (h : (nv.advanceBy m who target).arb ≠ nv.arb) : who = .fw := by
  by_contra hhost
  exact h (by simp [NonVol.advanceBy, hhost])

/-- No advance touches the option store. -/
theorem NonVol.advanceBy_opt (nv : NonVol) (m : Mach) (who : Requester) (target : Nat) : (nv.advanceBy m who target).opt = nv.opt := by
  rw [NonVol.advanceBy]
  split_ifs <;> rfl

/-- A register write changes the fuses only as the firmware's write of SEC_ARB. -/
theorem execRegisterWrite_arb_ne {who : Requester} {off width v : Nat} {s t : State} (h : execRegisterWrite who off width v s = .next t)
    (hne : t.nv.arb ≠ s.nv.arb) : who = .fw ∧ off = arbOffset := by
  cases h
  dsimp only at hne
  split_ifs at hne with hoff
  · exact ⟨NonVol.advanceBy_arb_ne hne, hoff.2⟩
  · exact absurd rfl hne

/-- A register write leaves the option store. -/
theorem execRegisterWrite_opt {who : Requester} {off width v : Nat} {s t : State} (h : execRegisterWrite who off width v s = .next t) : t.nv.opt = s.nv.opt := by
  cases h
  dsimp only
  split_ifs
  · exact NonVol.advanceBy_opt ..
  · rfl

/-- A command other than a register write, an advance and the end of an option-store write leaves the non-volatile state. -/
theorem exec_nv {i : Instr} {s t : State} (h : exec i s = .next t) (hwrite : ∀ who off width v, i ≠ .registerWrite who off width v)
    (hadvance : ∀ who target, i ≠ .arbAdvance who target) (hdone : i ≠ .optionStoreWriteDone) : t.nv = s.nv := by
  cases i with
  | registerWrite => exact (hwrite _ _ _ _ rfl).elim
  | arbAdvance => exact (hadvance _ _ rfl).elim
  | optionStoreWriteDone => exact absurd rfl hdone
  | coldResetAssert => exact execColdResetAssert_nv h
  | registerReadClear | globalBlockLock | timeNowLowRead | timeCtlLoad | timeRoleWrite | tickBoundary | switchPhaseComplete
  | syncSendTimer | syncSilenceTimeout | holdoverTimeout | digestReady | pairWaitExpiry | pairGraceExpiry
  | cxlMemRead | cxlMemWrite | hdmCommit | sidebandIdentity | sidebandTemperature | mailboxWrite | mailboxRead | identifyMemoryDevice
  | getSupportedLogs | getLog | getHealthInfo | mailboxUnsupported | doeDiscovery | cdatRead
  | farPortEnable | farPortUp | farAccessComplete | farAccessTimeout | lockstepMismatch | faultStopClear | rowCopySlot
  | selfCheckGo | faultInjArm | firmwareBootGo | firmwareVerifyDone | firmwareStarted | optionStoreWrite | optionLoad
  | powerStateRequest | stateEntryDone | wakePin | wakeTimer | hostWakeRequest | dawnStageReady | dawnStageTimeout | dayReached
  | powerGuardSample | conversionDone | coldResetRelease | warmResetRequest | warmResetRelease | startTimeout | partitionReset
  | unitReset | unitResetRelease | testModeEnter | ucieTrainingDone | linkLevelRetry => exact State.does_nv h
  | _ => exact State.run_nv h

/-- Settles O3: apart from the three commands that write it, every command leaves the non-volatile state (`exec_nv`). -/
theorem nonVolatileWriters : Obligations.NonVolatileWriters := by
  intro i s t h
  by_cases hwrite : ∃ who off width v, i = .registerWrite who off width v
  · obtain ⟨who, off, width, v, rfl⟩ := hwrite
    refine ⟨fun hne => ?_, fun hne => absurd (execRegisterWrite_opt h) hne⟩
    obtain ⟨rfl, rfl⟩ := execRegisterWrite_arb_ne h hne
    exact .inr ⟨width, v, rfl⟩
  by_cases hadvance : ∃ who target, i = .arbAdvance who target
  · obtain ⟨who, target, rfl⟩ := hadvance
    cases h
    exact ⟨fun hne => .inl ⟨target, by rw [NonVol.advanceBy_arb_ne hne]⟩, fun hne => absurd (NonVol.advanceBy_opt ..) hne⟩
  by_cases hdone : i = .optionStoreWriteDone
  · subst hdone
    exact ⟨fun hne => absurd (execOptionStoreWriteDone_arb h) hne, fun _ => rfl⟩
  · push Not at hwrite hadvance
    have hnv : t.nv = s.nv := exec_nv h hwrite hadvance hdone
    exact ⟨fun hne => absurd (congrArg _ hnv) hne, fun hne => absurd (congrArg _ hnv) hne⟩

/-! ## Under cold reset -/

section
variable {m : Mach}

theorem Mach.awake_of_cold (h : m.resets.cold = true) : m.awake = false := by simp [Mach.awake, h]

theorem powered_cold (f : Mach → Mach) (h : m.resets.cold = true) : powered f m = m := by simp [powered, h]

theorem Mach.hostRequest_asleep (i : Instr) (f : Mach → Mach) (h : m.awake = false) : m.hostRequest i f = m := by simp [Mach.hostRequest, h]

theorem Mach.access_asleep (who : Requester) (i : Instr) (may : Mach → Bool) (f : Mach → Mach) (h : m.awake = false) : m.access who i may f = m := by
  cases who <;> simp [Mach.access, Mach.hostRequest_asleep, h]

theorem Mach.accessAt_asleep (who : Requester) (i : Instr) (off : Nat) (f : Mach → Mach) (h : m.awake = false) : m.accessAt who i off f = m :=
  Mach.access_asleep _ _ _ _ h

theorem overTransport_asleep (t : Transport) (i : Instr) (f : Mach → Mach) (h : m.awake = false) : overTransport t i f m = m := by
  cases t <;> simp [overTransport, Mach.hostRequest_asleep, act_asleep, h]

/-- No command of a queue issues, and none wakes the block. -/
theorem commandRow_cold (form : Cmd → Bool) (p q : Nat) (raw : Cmd) (h : m.resets.cold = true) : commandRow form p q raw m = m := by
  have hmay : m.mayIssue p q = false := by simp [Mach.mayIssue, Mach.seqAlive, h]
  simp [commandRow, Mach.canIssue, hmay]

theorem Mach.arrive_cold (n : Nat) (f : Frame) (land : Frame → Bytes → Mach → Mach) (h : m.resets.cold = true) : m.arrive n f land = m := by
  simp [Mach.arrive, h]

theorem rowRegisterWrite_cold (who : Requester) (off width v : Nat) (h : m.resets.cold = true) : rowRegisterWrite who off width v m = m := by
  simp [rowRegisterWrite, Mach.accessAt_asleep, Mach.access_asleep, Mach.awake_of_cold h]

end

/-- A command whose change leaves the block as it is has no effect. -/
theorem State.does_of_fixed {f : Mach → Mach} {s t : State} (hfixed : f s.m = s.m) (h : State.does f s = .next t) : t = s := by
  cases h
  rw [State.onMach, hfixed]

theorem State.run_of_fixed {ok : Bool} {f : Mach → Mach} {s t : State} (hfixed : f s.m = s.m) (h : State.run ok f s = .next t) : t = s := by
  cases ok
  · cases h
  · exact State.does_of_fixed hfixed h

/-- An advance under cold reset leaves the fuses. -/
theorem NonVol.advanceBy_asleep (nv : NonVol) {m : Mach} (who : Requester) (target : Nat) (h : m.awake = false) : nv.advanceBy m who target = nv := by
  simp [NonVol.advanceBy, h]

/-- Under cold reset a command's effect is nothing: a row of an agent or of the host is not served, a command of a queue does not issue, a routed frame does not arrive, and the rest look at the reset themselves. -/
theorem exec_cold {i : Instr} {s t : State} (hcold : s.m.resets.cold = true) (hacts : actsUnderColdReset i = false) (h : exec i s = .next t) : t = s := by
  have hasleep : s.m.awake = false := Mach.awake_of_cold hcold
  cases i with
  | coldResetAssert | coldResetRelease | warmResetRelease | plugRemoval | plugInsertion | refreshSlot | refreshCalendarChange | stackThrottleOnset
  | stackThrottleClear => cases hacts
  | registerWrite who off width v =>
    cases h
    simp [State.onMach, rowRegisterWrite_cold who off width v hcold, NonVol.advanceBy_asleep _ _ _ hasleep]
  | arbAdvance who target =>
    cases h
    simp [State.onMach, Mach.accessAt_asleep _ _ _ _ hasleep, NonVol.advanceBy_asleep _ _ _ hasleep]
  | optionStoreWriteDone =>
    change execOptionStoreWriteDone s = _ at h
    simp only [execOptionStoreWriteDone, hasleep, Bool.false_eq_true, if_false] at h
    cases h
    rfl
  | tickBoundary => exact State.does_of_fixed (by simp [tickBoundary, hcold]) h
  | registerReadClear | timeNowLowRead => exact State.does_of_fixed (Mach.access_asleep _ _ _ _ hasleep) h
  | thermNowRead | qctlResume => exact State.run_of_fixed (Mach.access_asleep _ _ _ _ hasleep) h
  | globalBlockLock | timeCtlLoad | timeRoleWrite | farPortEnable | faultStopClear | selfCheckGo | faultInjArm | firmwareBootGo | firmwareStarted
  | optionStoreWrite | powerStateRequest | warmResetRequest | partitionReset | unitReset | testModeEnter =>
    exact State.does_of_fixed (Mach.accessAt_asleep _ _ _ _ hasleep) h
  | stackForgetGo | poolAddGo | ifillGo | coreRetire | descriptorCreate | descriptorDestroy | secAllocWrite | partitionEnable | partitionSwitchGo
  | linkRetrain | faultAck | retireRow | retireBank | retireStack | weightMeasureGo | partitionSeal | importGo | qctlEnable | evraise =>
    exact State.run_of_fixed (Mach.accessAt_asleep _ _ _ _ hasleep) h
  | cxlMemRead | cxlMemWrite | hdmCommit | identifyMemoryDevice | getSupportedLogs | getLog | getHealthInfo | mailboxUnsupported | doeDiscovery | cdatRead =>
    exact State.does_of_fixed (Mach.hostRequest_asleep _ _ hasleep) h
  | getVersion | getCapabilities | negotiateAlgorithms | getDigests | getCertificate | challenge | getMeasurements | keyExchange | finish | endSession
  | vendorDefinedRequest | keyagree => exact State.run_of_fixed (overTransport_asleep _ _ _ hasleep) h
  | writeFrame | sealFrame | readreqFrame | readrepFrame | atomreqFrame | atomrepFrame => exact State.run_of_fixed (Mach.arrive_cold _ _ _ hcold) h
  | linkSignalLoss | linkFecFail | linkRetrainTimer | linkTrainingDone | dieTrip | dramTrip => exact State.run_of_fixed (powered_cold _ hcold) h
  | conversionDone => exact State.does_of_fixed (powered_cold _ hcold) h
  | trainFrame => exact State.run_of_fixed (by simp [Sys2Proof.Machine.trainFrame, hcold]) h
  | outputPortSend => exact State.run_of_fixed (by simp [portSend, hcold]) h
  | sidebandIdentity => exact State.does_of_fixed (by simp [Sys2Proof.Machine.sidebandIdentity, hcold]) h
  | sidebandTemperature => exact State.does_of_fixed (by simp [Sys2Proof.Machine.sidebandTemperature, hcold]) h
  | mailboxWrite => exact State.does_of_fixed (by simp [Sys2Proof.Machine.mailboxWrite, hcold]) h
  | mailboxRead => exact State.does_of_fixed (by simp [Sys2Proof.Machine.mailboxRead, hcold]) h
  | switchPhaseComplete | syncSendTimer | syncSilenceTimeout | holdoverTimeout | digestReady | pairWaitExpiry | pairGraceExpiry | farPortUp | farAccessComplete
  | farAccessTimeout | lockstepMismatch | rowCopySlot | firmwareVerifyDone | optionLoad | stateEntryDone | wakePin | wakeTimer | hostWakeRequest
  | dawnStageReady | dawnStageTimeout | dayReached | powerGuardSample | startTimeout | unitResetRelease | ucieTrainingDone | linkLevelRetry =>
    exact State.does_of_fixed (act_asleep _ hasleep) h
  | stepDeadlineMiss | commandCompletion | domainReady | attendItem | pgemvItem | appendItem | itemBankTake | recordArrival | bankServicePeriod | bankYieldPoint
  | forgetDone | poolAddDone | scAdd | scAddi | scSub | scMul | scAnd | scOr | scXor | scShl | scShr | scSar | scLi | scLdc | scCmplt | scCmpeq | scBr | scBz
  | scBnz | scLoop | scQcfg | scQrew | scMyid | scPeer | scSetprog | scIfill | scMxfmt | scAmo | amoComplete | vxAdd | vxSub | vxMul | vxFma | vxMax | vxMin
  | vxExp | vxRcp | vxRsqrt | vxRsum | vxRmax | vxGather | vxCvt | vxScal | vxBcast | vxCmp | vxSel | vectorTokenSet | mxMma | mmaComplete | mxDrain | drainStart
  | drainRowPush | ldTile | loadEntryReady | stTile | storeComplete | syAwait | sySpace | syStw | syLdw | syMx | syDr | syIfill | syBar | barrierRelease | syCyc
  | sySwpt | syEnd | syIdle | syAmo | groupStop | watchdogExpiry | ifillDone | descriptorValidationDone | descriptorDrainDone | switchDrainForce | sealHoldExpiry
  | transferCloseExpiry | replyLimitExpiry | unknownFrame | syncFrame | stopFrame | startFrame | digestFrame | checkFrame | fenceFrame | ucieModuleFail
  | farLinkDown | mcLockstepMismatch | seamCrcError | selfCheckDone | diagTest | weightMeasureDone | importDone | railFail | pllLockLoss | startupCheckerTest
  | scalarResultWrite =>
    exact State.run_of_fixed (act_asleep _ hasleep) h
  -- the rest are the commands of a queue
  | _ => exact State.run_of_fixed (commandRow_cold _ _ _ _ hcold) h

/-- Settles O7: what is sent completes (`exec_completes`), and under cold reset with the block as it was (`exec_cold`). -/
theorem coldResetHoldsTheBlock : Obligations.ColdResetHoldsTheBlock := by
  intro i s hwf hcold hacts
  have hdefined : undefinedPulse i = false := by
    cases i with
    | coldResetAssert => cases hacts
    | _ => rfl
  obtain ⟨t, ht, -⟩ := exec_completes s hwf hdefined
  rw [ht, exec_cold hcold hacts ht]

/-! ## After reset -/

/-- After reset every field reads its value after reset. -/
theorem rd_reset (f : Fld) (i j : Nat) : State.reset.m.rd f i j = RKey.reset ⟨f, i, j⟩ := rfl

/-- Settles O5: the registers by their values after reset, the rest of the state as `State.reset` writes it out. -/
theorem resetStateHoldsTheStatedValues : Obligations.ResetStateHoldsTheStatedValues := by
  refine ⟨rfl, rfl, rfl, rfl, rfl, rfl, rfl, rfl, rfl, fun p _ => ⟨?enable, ?resident, rfl⟩, rfl, rfl, rfl, rfl, rfl, rfl, ?fuses⟩
  case enable => simp [rd_reset, RKey.reset, b2n]
  case resident => simp [rd_reset, RKey.reset, b2n]
  case fuses => exact Nat.zero_le 128

end Sys2Proof.Machine
end

section
/-! PROOFS. How a command that answers does what is written of it: its row is run or served, and its effect on the block is the one stated. -/
namespace Sys2Proof.Machine

section
variable {s : State} {who : Requester} {ok : Bool} {f g : Mach → Mach}

/-- A command whose effect on the block is g's. -/
theorem State.does_eq (h : f s.m = g s.m) : State.does f s = .next (s.onMach g) := by
  rw [State.does, State.onMach, h, ← State.onMach]

theorem State.run_eq (hok : ok = true) (h : f s.m = g s.m) : State.run ok f s = .next (s.onMach g) := by
  rw [State.run_true f s hok]
  exact State.does_eq h

theorem State.does_act_eq (ha : s.m.awake = true) (h : f s.m = g s.m) : State.does (act f) s = .next (s.onMach g) :=
  State.does_eq ((act_awake f ha).trans h)

theorem State.run_act_eq (hok : ok = true) (ha : s.m.awake = true) (h : f s.m = g s.m) : State.run ok (act f) s = .next (s.onMach g) :=
  State.run_eq hok ((act_awake f ha).trans h)

/-- A command whose effect leaves the block. -/
theorem State.does_fixed (h : f s.m = s.m) : State.does f s = .next s := State.does_eq (g := id) h

theorem State.run_fixed (hok : ok = true) (h : f s.m = s.m) : State.run ok f s = .next s := State.run_eq (g := id) hok h

theorem State.does_act_fixed (ha : s.m.awake = true) (h : f s.m = s.m) : State.does (act f) s = .next s := State.does_act_eq (g := id) ha h

theorem State.run_act_fixed (hok : ok = true) (ha : s.m.awake = true) (h : f s.m = s.m) : State.run ok (act f) s = .next s :=
  State.run_act_eq (g := id) hok ha h

/-- A served write of a register does what its row does. -/
theorem State.does_served {i : Instr} {off : Nat} (h : s.m.serves who off = true) (hf : f s.m = g s.m) :
    State.does (fun m => m.accessAt who i off f) s = .next (s.onMach g) := State.does_eq ((Mach.accessAt_served i f h).trans hf)

theorem State.run_served {i : Instr} {off : Nat} (hok : ok = true) (h : s.m.serves who off = true) (hf : f s.m = g s.m) :
    State.run ok (fun m => m.accessAt who i off f) s = .next (s.onMach g) := State.run_eq hok ((Mach.accessAt_served i f h).trans hf)

/-- An answered access that anyone may make. -/
theorem State.does_answered {i : Instr} (h : s.m.answers who = true) (hf : f s.m = g s.m) :
    State.does (fun m => m.access who i anyone f) s = .next (s.onMach g) := State.does_eq ((Mach.access_served (g := anyone) i f rfl h).trans hf)

theorem State.run_answered {i : Instr} (hok : ok = true) (h : s.m.answers who = true) (hf : f s.m = g s.m) :
    State.run ok (fun m => m.access who i anyone f) s = .next (s.onMach g) := State.run_eq hok ((Mach.access_served (g := anyone) i f rfl h).trans hf)

/-- A request of the host that is answered. -/
theorem State.does_requested {i : Instr} (h : s.m.answers .host = true) (hf : f s.m = g s.m) :
    State.does (fun m => m.hostRequest i f) s = .next (s.onMach g) := State.does_eq ((Mach.hostRequest_answered i f h).trans hf)

end

end Sys2Proof.Machine
end

section
/-! PROOFS. Rows of the register file that are served: the rows of one field, TIME_CTL.ROLE, and whole words (R5, R10, R13, R26, R27, R89, R104, R108). -/
namespace Sys2Proof.Machine

/-! ## Rows of one field -/

section
variable {m : Mach} {p q : Nat}

theorem queueEnable_zero : queueEnable p q 0 m = m.wr .SEQR_QCTL_ENABLE 0 p q := rfl

theorem queueEnable_enabled (h : m.flag .SEQR_QCTL_ENABLE p q = true) : queueEnable p q 1 m = m := by simp [queueEnable, h]

theorem queueEnable_ringOk (h : m.flag .SEQR_QCTL_ENABLE p q = false) (hring : m.ringOk p q = true) :
    queueEnable p q 1 m = m.wr .SEQR_QCTL_ENABLE 1 p q := by simp [queueEnable, h, hring]

theorem queueEnable_refused (h : m.flag .SEQR_QCTL_ENABLE p q = false) (hring : m.ringOk p q = false) : queueEnable p q 1 m = m.badAcc := by
  simp [queueEnable, h, hring]

end

/-- QCTL.ENABLE, served, does what its row does. -/
theorem exec_qctlEnable_served {s : State} {who : Requester} {p q : Nat} (v : Nat) (hp : p < 16) (hq : q < 20)
    (h : s.m.serves who (0x00200038 + p * 0x10000 + q * 0x40) = true) : exec (.qctlEnable who p q v) s = .next (s.onMach (queueEnable p q v)) :=
  State.run_served (by simp [hp, hq]) h rfl

/-- Settles O8: each row is served and writes its one field; QCTL.ENABLE by the branches of `queueEnable`. -/
theorem registerRowsWriteTheirField : Obligations.RegisterRowsWriteTheirField := by
  intro s who p q e hp hq he
  refine ⟨fun h => ?lock, fun h => ?load, fun h => ?resume, fun h => ?raise, fun h => ⟨?disable, fun hon => ?enabled, fun hoff hring => ?enable, fun hoff hring => ?refused⟩⟩
  case lock => exact State.does_served h rfl
  case load => exact State.does_served h rfl
  case resume => exact State.run_answered (by simp [hp, hq]) h rfl
  case raise => exact State.run_served (by simp [hp, he]) h rfl
  case disable => exact exec_qctlEnable_served 0 hp hq h
  case enabled => simp only [exec_qctlEnable_served 1 hp hq h, State.onMach, queueEnable_enabled hon]
  case enable => simp only [exec_qctlEnable_served 1 hp hq h, State.onMach, queueEnable_ringOk hoff hring]
  case refused => simp only [exec_qctlEnable_served 1 hp hq h, State.onMach, queueEnable_refused hoff hring, Mach.badAcc]

/-! ## TIME_CTL.ROLE (R26) -/

theorem width_TIME_SYNC_STATE : Fld.TIME_SYNC_STATE.width = 2 := rfl
theorem width_TIME_CTL_ROLE : Fld.TIME_CTL_ROLE.width = 2 := rfl

/-- Entering a synchronisation state shows it. -/
theorem Mach.rd_state_syncTo (m : Mach) (st : Nat) : (m.syncTo st).rd .TIME_SYNC_STATE = trunc 2 st := by
  simp only [Mach.syncTo]
  exact Mach.rd_wr_same ..

/-- And leaves the role. -/
theorem Mach.rd_role_syncTo (m : Mach) (st : Nat) : (m.syncTo st).rd .TIME_CTL_ROLE = m.rd .TIME_CTL_ROLE := by
  simp only [Mach.syncTo]
  change (Mach.wr (if m.rd .TIME_SYNC_STATE = 2 ∧ st ≠ 2 then m.inc .TIME_SYNC_LOCKLOSS else m) .TIME_SYNC_STATE st).rd .TIME_CTL_ROLE = _
  split_ifs <;> simp [Mach.inc]

/-- The role that the block has stays, with its state. -/
theorem roleWrite_same {m : Mach} {v : Nat} (hv : v < 3) (hsame : v = m.rd .TIME_CTL_ROLE) : roleWrite v m = m := by
  have h4 : v % 4 = v := Nat.mod_eq_of_lt (by omega)
  have h3 : v ≠ 3 := by omega
  simp only [roleWrite, h4, if_neg h3, if_pos hsame]

/-- A new role comes with its state: LOCKED, FREE, or HOLDOVER for a block that was grandmaster. -/
theorem roleWrite_new {m : Mach} {v : Nat} (hv : v < 3) (hnew : v ≠ m.rd .TIME_CTL_ROLE) :
    roleWrite v m = (if v = 1 then (m.wr .TIME_CTL_ROLE v).syncTo 2 else if v = 2 then (m.wr .TIME_CTL_ROLE v).syncTo 0
      else if m.rd .TIME_CTL_ROLE = 1 then (m.wr .TIME_CTL_ROLE v).syncTo 3 else m.wr .TIME_CTL_ROLE v) := by
  interval_cases v <;> simp [roleWrite, hnew]

/-- The role after a write is the value written. -/
theorem rd_role_roleWrite {m : Mach} {v : Nat} (hv : v < 3) : (roleWrite v m).rd .TIME_CTL_ROLE = v := by
  have htrunc : trunc Fld.TIME_CTL_ROLE.width v = v := Nat.mod_eq_of_lt (show v < 4 by omega)
  by_cases hsame : v = m.rd .TIME_CTL_ROLE
  · rw [roleWrite_same hv hsame, ← hsame]
  · rw [roleWrite_new hv hsame]
    split_ifs <;> simp [Mach.rd_role_syncTo, htrunc]

/-- The state after a write. -/
theorem rd_state_roleWrite {m : Mach} {v : Nat} (hv : v < 3) : (roleWrite v m).rd .TIME_SYNC_STATE =
    (if v = m.rd .TIME_CTL_ROLE then m.rd .TIME_SYNC_STATE else if v = 1 then 2 else if v = 2 then 0
      else if m.rd .TIME_CTL_ROLE = 1 then 3 else m.rd .TIME_SYNC_STATE) := by
  by_cases hsame : v = m.rd .TIME_CTL_ROLE
  · rw [roleWrite_same hv hsame, if_pos hsame]
  · rw [roleWrite_new hv hsame, if_neg hsame]
    split_ifs <;> simp [Mach.rd_state_syncTo, trunc]

/-- TIME_CTL.ROLE, served, does what its row does. -/
theorem exec_timeRoleWrite_served {s : State} {who : Requester} (v : Nat) (h : s.m.serves who 0x00100018 = true) :
    exec (.timeRoleWrite who v) s = .next (s.onMach (roleWrite v)) := State.does_served h rfl

/-- Settles O9: the role and its state are those of `roleWrite`, which refuses 3. -/
theorem timeRoleSetsTheState : Obligations.TimeRoleSetsTheState := by
  intro s who v h
  exact ⟨fun hv => ⟨_, exec_timeRoleWrite_served v h, rd_role_roleWrite hv, rd_state_roleWrite hv⟩, exec_timeRoleWrite_served 3 h⟩

/-! ## Whole words -/

/-- The word of GLOBAL_BLOCK holds NUM and LOCK. -/
theorem wordAt_block : wordAt 0x10 = some ([.GLOBAL_BLOCK_NUM, .GLOBAL_BLOCK_LOCK], 0, 0) := rfl

/-- The word of GLOBAL_BADACC holds its counter. -/
theorem wordAt_badAcc : wordAt 0x18 = some ([.GLOBAL_BADACC_COUNT], 0, 0) := rfl

/-- No word stands at 0x01D00000. -/
theorem wordAt_reserved : wordAt 0x01D00000 = none := by decide

/-- A served write is answered. -/
theorem Mach.answers_of_serves {m : Mach} {who : Requester} {off : Nat} (h : m.serves who off = true) : m.answers who = true := by
  simp only [Mach.serves, Bool.and_eq_true] at h
  exact h.1

/-- A whole write that R11 refuses is a bad request and nothing more. -/
theorem fullWrite_of_not_accessOk {off width : Nat} (v : Nat) (m : Mach) (hbad : accessOk off width = false) : fullWrite off width v m = m.badRequest off := by
  simp [fullWrite, regWrite, hbad]

/-- A register write of another word than SEC_ARB's is one of the block alone. -/
theorem exec_registerWrite_served {s : State} {who : Requester} {off : Nat} (width v : Nat) (h : s.m.serves who off = true) (hoff : off ≠ arbOffset) :
    exec (.registerWrite who off width v) s = .next (s.onMach (fullWrite off width v)) := by
  cases hacc : accessOk off width with
  | true =>
    change execRegisterWrite who off width v s = _
    simp [execRegisterWrite, hoff, State.onMach, rowRegisterWrite, hacc, Mach.accessAt_served _ _ h]
  | false =>
    rw [exec_registerWrite_of_not_accessOk v hacc]
    simp only [State.onMach, rowRegisterWrite_of_not_accessOk v hacc (Mach.answers_of_serves h), fullWrite_of_not_accessOk v s.m hacc]

/-- A write to a reserved offset is counted. -/
theorem fullWrite_reserved (v : Nat) (m : Mach) : fullWrite 0x01D00000 64 v m = m.badAcc := by
  have hacc : accessOk 0x01D00000 64 = true := rfl
  have hwindow : readOnlyWindow 0x01D00000 = false := rfl
  simp [fullWrite, regWrite, hacc, wordAt_reserved, hwindow]

/-- GLOBAL_BLOCK lies in the window of no core. -/
theorem Mach.coreHidden_block (m : Mach) : m.coreHidden 0x10 = false := by simp [Mach.coreHidden]

theorem info_GLOBAL_BLOCK_NUM : Fld.GLOBAL_BLOCK_NUM.info = ⟨9, 0, .rwl, 0x3FF⟩ := rfl
theorem info_GLOBAL_BLOCK_LOCK : Fld.GLOBAL_BLOCK_LOCK.info = ⟨31, 31, .w1s, 0⟩ := rfl
theorem info_GLOBAL_BADACC_COUNT : Fld.GLOBAL_BADACC_COUNT.info = ⟨31, 0, .rc, 0⟩ := rfl

/-- NUM takes the low bits of a written word while LOCK is 0. -/
theorem rd_num_writeField (m : Mach) {v : Nat} (hv : v < 1024) : (m.writeField m 0 0 0 64 v .GLOBAL_BLOCK_NUM).rd .GLOBAL_BLOCK_NUM =
    if m.flag .GLOBAL_BLOCK_LOCK then m.rd .GLOBAL_BLOCK_NUM else v := by
  have howner : ownRow .GLOBAL_BLOCK_NUM = false := rfl
  have hkept (old : Nat) : (old - old % 1024 + v % 1024) % 1024 = v := by omega
  cases hlock : m.flag .GLOBAL_BLOCK_LOCK <;>
    simp [Mach.writeField, Fld.meets, info_GLOBAL_BLOCK_NUM, howner, Mach.locked, hlock, Mach.setField, Mach.writeBase, Fld.width, trunc, hkept]

/-- And leaves LOCK. -/
theorem rd_lock_writeField (m : Mach) (v : Nat) : (m.writeField m 0 0 0 64 v .GLOBAL_BLOCK_NUM).rd .GLOBAL_BLOCK_LOCK = m.rd .GLOBAL_BLOCK_LOCK := by
  have howner : ownRow .GLOBAL_BLOCK_NUM = false := rfl
  cases hlock : m.flag .GLOBAL_BLOCK_LOCK <;>
    simp [Mach.writeField, Fld.meets, info_GLOBAL_BLOCK_NUM, howner, Mach.locked, hlock, Mach.setField]

/-- A field whose writes are commands of their own is left by a plain write. -/
theorem Mach.writeField_ownRow {f : Fld} (h : ownRow f = true) (x m : Mach) (i j lo n v : Nat) : x.writeField m i j lo n v f = x := by
  simp [Mach.writeField, h]

/-- A write of GLOBAL_BLOCK whose LOCK bit is 0 is one of NUM alone. -/
theorem fullWrite_block {v : Nat} (m : Mach) (hv : v < 1024) : fullWrite 0x10 64 v m = m.writeField m 0 0 0 64 v .GLOBAL_BLOCK_NUM := by
  have hacc : accessOk 0x10 64 = true := rfl
  have howner : ownRow .GLOBAL_BLOCK_LOCK = true := rfl
  have hbit : v % 18446744073709551616 / 2147483648 % 2 = 0 := by omega
  simp [fullWrite, regWrite, hacc, wordAt_block, Mach.coreHidden_block, runAction, fieldAction, Fld.width, info_GLOBAL_BLOCK_LOCK, Fld.meets, hbit,
    Mach.writeField_ownRow howner]

/-- GLOBAL_BADACC lies in the window of no core. -/
theorem Mach.coreHidden_badAcc (m : Mach) : m.coreHidden 0x18 = false := by simp [Mach.coreHidden]

/-- GLOBAL_BADACC.COUNT reads as it is stored. -/
theorem Mach.fieldValue_badAcc (m : Mach) (nv : NonVol) : m.fieldValue nv .GLOBAL_BADACC_COUNT 0 0 = m.rd .GLOBAL_BADACC_COUNT := rfl

/-- The word of GLOBAL_BADACC is its counter. -/
theorem Mach.readWord_badAcc (m : Mach) (nv : NonVol) (who : Requester) : m.readWord nv who 0x18 = m.rd .GLOBAL_BADACC_COUNT % 2 ^ 32 := by
  simp [Mach.readWord, wordAt_badAcc, Mach.coreHidden_badAcc, Mach.fieldValue_badAcc, Fld.width, info_GLOBAL_BADACC_COUNT, trunc]

/-- A read of GLOBAL_BADACC gives its counter and clears it. -/
theorem regRead_badAcc (nv : NonVol) (who : Requester) (m : Mach) :
    regRead nv who 0x18 64 m = (m.emit (.regRead 0x18 64 (m.rd .GLOBAL_BADACC_COUNT % 2 ^ 32))).wr .GLOBAL_BADACC_COUNT 0 := by
  have hfits : m.rd .GLOBAL_BADACC_COUNT % 4294967296 % 18446744073709551616 = m.rd .GLOBAL_BADACC_COUNT % 4294967296 := by omega
  simp [regRead, accessOk, Mach.readWord_badAcc, wordAt_badAcc, Mach.coreHidden_badAcc, info_GLOBAL_BADACC_COUNT, Fld.meets, Mach.clearRead, hfits]

/-- Settles O10: a served write is `fullWrite`, which at a reserved offset counts and at GLOBAL_BLOCK is one of NUM; an answered read is `regRead`. -/
theorem registerAccessesActOnTheirWord : Obligations.RegisterAccessesActOnTheirWord := by
  intro s who off width v
  refine ⟨fun h => ⟨fun hoff => exec_registerWrite_served width v h hoff, ?reserved, ?block⟩, fun hans => ⟨exec_registerReadClear_answered off width hans, ?clear⟩⟩
  case reserved =>
    rintro rfl rfl
    simp only [exec_registerWrite_served 64 v h (by decide), State.onMach, fullWrite_reserved, Mach.badAcc]
  case block =>
    rintro rfl rfl hv
    refine ⟨_, exec_registerWrite_served 64 v h (by decide), ?_, ?_⟩
    · simp only [State.onMach, fullWrite_block s.m hv, rd_num_writeField s.m hv]
    · simp only [State.onMach, fullWrite_block s.m hv, rd_lock_writeField]
  case clear => simp only [exec_registerReadClear_answered _ _ hans, State.onMach, regRead_badAcc]

end Sys2Proof.Machine
end

section
/-! PROOFS. The tick boundary, a step's miss, and domains that come ready (R28, R30, R48, R49, R274). -/
namespace Sys2Proof.Machine

/-- Out of reset a boundary is the whole of R30. -/
theorem tickBoundary_awake {m : Mach} (h : m.awake = true) : tickBoundary m =
    (let m := (List.range 16).foldl Mach.monitor (drainTrace 4096 false m.readyDue).nextTick.throttleCycles.applyPending.snapshot
     if m.seqAlive then m.evaluateAll else m) := by
  simp only [Mach.awake, Bool.and_eq_true, Bool.not_eq_true', Option.isNone_iff_eq_none] at h
  obtain ⟨hcold, hwarm⟩ := h
  simp [tickBoundary, hcold, hwarm]

/-- In warm reset a boundary is the time base's alone. -/
theorem tickBoundary_warm {m : Mach} (hcold : m.resets.cold = false) (hwarm : m.resets.warm ≠ none) : tickBoundary m = m.nextTick := by
  have hsome : m.resets.warm.isSome = true := Option.isSome_iff_ne_none.mpr hwarm
  simp [tickBoundary, hcold, hsome]

/-- Where no load waits, time goes to the next multiple of 100 ns. -/
theorem Mach.nextTick_noLoad {m : Mach} (h : m.time.loadReq = false) : m.nextTick = { m with time := { m.time with ns := (m.time.ns / 100 + 1) * 100 } } := by
  simp [Mach.nextTick, h]

section
variable {m : Mach} {p d : Nat}

theorem deadlineMiss_due (h : m.missDue p = true) : deadlineMiss p m =
    (((m.setMon p { m.mon p with missed := true }).inc .SEQR_MON_MISSCOUNT 1 p).raiseEvent p (m.rd .SEQR_MON_MISSEV p)).fireActions p 2 := by
  simp only [deadlineMiss, h, if_true]
  rfl

theorem deadlineMiss_notDue (h : m.missDue p = false) : deadlineMiss p m = m := by simp [deadlineMiss, h]

theorem domainReady_due (hst : (m.dom d).st = 1) (hat : (m.dom d).readyAt ≤ m.tick) : domainReady d m =
    (let m := m.setDom d { m.dom d with st := 2 }
     (m.sq.issued.filter (fun c => !c.started && c.result.isNone)).foldl (fun m c => m.startNext c.part c.queue) m) := if_pos ⟨hst, hat⟩

theorem domainReady_notDue (h : (m.dom d).st ≠ 1 ∨ m.tick < (m.dom d).readyAt) : domainReady d m = m := by
  refine if_neg (fun ⟨hst, hat⟩ => ?_)
  exact h.elim (fun hne => hne hst) (fun hlt => by omega)

end

/-- Settles O13: a boundary out of reset and one in warm reset, and a miss and a domain that are due or are not. -/
theorem ticksMissesAndReadyDomains : Obligations.TicksMissesAndReadyDomains := by
  intro s p d
  refine ⟨fun h => ?boundary, Mach.nextTick_noLoad, fun hcold hwarm hload => ?warm, fun h => ⟨fun hp hdue => ?miss, fun hp hdue => ?noMiss, fun hd hst hat => ?ready,
    fun hd hdue => ?notReady⟩⟩
  case boundary => exact State.does_eq (tickBoundary_awake h)
  case warm => exact State.does_eq ((tickBoundary_warm hcold hwarm).trans (Mach.nextTick_noLoad hload))
  case miss => exact State.run_act_eq (by simp [hp]) h (deadlineMiss_due hdue)
  case noMiss => exact State.run_act_fixed (by simp [hp]) h (deadlineMiss_notDue hdue)
  case ready => exact State.run_act_eq (by simp [hd]) h (domainReady_due hst hat)
  case notReady => exact State.run_act_fixed (by simp [hd]) h (domainReady_notDue hdue)

end Sys2Proof.Machine
end

section
/-! PROOFS. The commands that the sequencer executes itself (R96 to R99). -/
namespace Sys2Proof.Machine

/-- A command of the sequencer's own joins the issued ones, runs, and completes with what it gave. -/
theorem State.run_sequencer {s : State} {p q : Nat} {raw c : Cmd} {form : Cmd → Bool} {r : Mach × Nat × Nat} (h : s.m.commandReady p q raw c = true)
    (hform : form c = true) (hown : isSeqOp c.opcode = true) (hrun : (s.m.joined p q c).seqOpRun p q c = r) :
    State.run (decide (p < 16 ∧ q < 20)) (commandRow form p q raw) s = .next (s.onMach (fun _ =>
      (r.1.setIssued { s.m.joining p q c with result := some r.2.1, progress := r.2.2 }).completeNew (s.m.joining p q c))) := by
  subst hrun
  exact State.run_eq (by simpa using commandReady_bounds h) (commandRow_sequencer form h hform hown)

/-! ## What each opcode does when it runs -/

section
variable {m : Mach} {p q : Nat} {c : Cmd}

theorem Mach.seqOpRun_nop (h : c.opcode = 0x00) : m.seqOpRun p q c = (m, stOk, 1) := by simp [Mach.seqOpRun, h]

theorem Mach.seqOpRun_wait (h : c.opcode = 0x07) : m.seqOpRun p q c =
    (m, if (c.waits.filter (m.waitMet p)).length = 5 then stOk else stDeadline, (c.waits.filter (m.waitMet p)).length) := by simp [Mach.seqOpRun, h]

theorem Mach.seqOpRun_mark (h : c.opcode = 0x0E) : m.seqOpRun p q c =
    (m.trace 3 p q 0x0E c.tag (toBytes 8 c.p1 ++ toBytes 8 c.p2), stOk, b2n (m.traced p 3 && m.traceRoom)) := by simp [Mach.seqOpRun, h]

/-- PATCH applies its first operation, then its second. -/
theorem Mach.seqOpRun_patch {m1 m2 : Mach} {a b : Nat} (h : c.opcode = 0x08) (hfirst : m.patchOne p c.p1 c.p2 = (m1, a)) (hsecond : m1.patchOne p c.p3 c.p4 = (m2, b)) :
    m.seqOpRun p q c = (m2, if a + b = 0 then stEmpty else stOk, a + b) := by simp [Mach.seqOpRun, h, hfirst, hsecond]

/-! ## PATCH's operations -/

variable {sel val : Nat}

theorem Mach.patchOne_none (h : bits sel 7 6 = 0) : m.patchOne p sel val = (m, 0) := by simp [Mach.patchOne, h]

theorem Mach.patchOne_set (h : bits sel 7 6 = 1) : m.patchOne p sel val = (m.wr .SEQR_PARAM_VALUE val p (bits sel 5 0), 1) := by simp [Mach.patchOne, h]

theorem Mach.patchOne_add (h : bits sel 7 6 = 2) :
    m.patchOne p sel val = (m.wr .SEQR_PARAM_VALUE (m.rd .SEQR_PARAM_VALUE p (bits sel 5 0) + val) p (bits sel 5 0), 1) := by simp [Mach.patchOne, h]

theorem Mach.patchOne_copy (h : bits sel 7 6 = 3) :
    m.patchOne p sel val = (m.wr .SEQR_PARAM_VALUE (m.rd .SEQR_PARAM_VALUE p (bits sel 13 8)) p (bits sel 5 0), 1) := by simp [Mach.patchOne, h]

/-! ## JUMP -/

theorem Mach.seqOpRun_jump_notTaken (hop : c.opcode = 0x0F) (hcounts : bit c.p1 16 = true) (hzero : m.rd .SEQR_PARAM_VALUE p (bits c.p1 22 17) = 0) :
    m.seqOpRun p q c = (m, stOk, 0) := by simp [Mach.seqOpRun, hop, Mach.jump, hcounts, hzero, b2n]

theorem Mach.seqOpRun_jump_taken (hop : c.opcode = 0x0F) (h : bit c.p1 16 = false ∨ m.rd .SEQR_PARAM_VALUE p (bits c.p1 22 17) ≠ 0) : m.seqOpRun p q c =
    (let lowered := if bit c.p1 16 then m.wr .SEQR_PARAM_VALUE (m.rd .SEQR_PARAM_VALUE p (bits c.p1 22 17) - 1) p (bits c.p1 22 17) else m
     let raised := if bit c.p1 24 then lowered.wr .SEQR_PARAM_VALUE (lowered.rd .SEQR_PARAM_VALUE p (bits c.p1 30 25) + c.p3) p (bits c.p1 30 25) else lowered
     let based := if bit c.p1 31 then raised.wr .SEQR_QTBASE_TICK (raised.rd .SEQR_QTBASE_TICK p q + bits c.p2 47 0) p q else raised
     (based.wr .SEQR_QHEAD_HEAD (bits c.p1 15 0) p q, stOk, 1)) := by
  have hgoes : ¬ (bit c.p1 16 && m.rd .SEQR_PARAM_VALUE p (bits c.p1 22 17) == 0) = true := by
    rcases h with h | h <;> simp [h]
  simp only [Mach.seqOpRun, hop, Mach.jump, if_neg hgoes, b2n, if_true]

end

/-- Settles O14: each opcode by the lemma that says what it does when it runs; PATCH by its two operations, JUMP by whether it is taken. -/
theorem sequencerCommandsAct : Obligations.SequencerCommandsAct := by
  intro s p q raw c h
  refine ⟨fun hop => ?nop, fun hop => ?wait, fun hop h1 h2 => ?none, fun hop h1 h2 => ?set, fun hop h1 h2 => ?add, fun hop h1 h2 => ?copy, fun hop h1 h2 => ?second,
    fun hop => ?mark, fun hop hcounts hzero => ?notTaken, fun hop hgoes => ?taken⟩
  case nop => exact State.run_sequencer h (by simp [hop]) (by rw [hop]; rfl) (Mach.seqOpRun_nop hop)
  case wait => exact State.run_sequencer h (by simp [hop]) (by rw [hop]; rfl) (Mach.seqOpRun_wait hop)
  case none => exact State.run_sequencer h (by simp [hop]) (by rw [hop]; rfl) (Mach.seqOpRun_patch hop (Mach.patchOne_none h1) (Mach.patchOne_none h2))
  case set => exact State.run_sequencer h (by simp [hop]) (by rw [hop]; rfl) (Mach.seqOpRun_patch hop (Mach.patchOne_set h1) (Mach.patchOne_none h2))
  case add => exact State.run_sequencer h (by simp [hop]) (by rw [hop]; rfl) (Mach.seqOpRun_patch hop (Mach.patchOne_add h1) (Mach.patchOne_none h2))
  case copy => exact State.run_sequencer h (by simp [hop]) (by rw [hop]; rfl) (Mach.seqOpRun_patch hop (Mach.patchOne_copy h1) (Mach.patchOne_none h2))
  case second => exact State.run_sequencer h (by simp [hop]) (by rw [hop]; rfl) (Mach.seqOpRun_patch hop (Mach.patchOne_none h1) (Mach.patchOne_set h2))
  case mark => exact State.run_sequencer h (by simp [hop]) (by rw [hop]; rfl) (Mach.seqOpRun_mark hop)
  case notTaken => exact State.run_sequencer h (by simp [hop]) (by rw [hop]; rfl) (Mach.seqOpRun_jump_notTaken hop hcounts hzero)
  case taken => exact State.run_sequencer h (by simp [hop]) (by rw [hop]; rfl) (Mach.seqOpRun_jump_taken hop hgoes)

end Sys2Proof.Machine
end

section
/-! PROOFS. Commands that an engine starts and that complete: session items, kernels, and the oldest command of a queue (R67, R100, R101, R139, R149, R263, R264, R270). -/
namespace Sys2Proof.Machine

/-! ## Session commands (R263, R264) -/

section
variable {m : Mach} {p q : Nat}

/-- The oldest command of a queue starts on its engine where its domains run, no unit is in reset and its partition may run. -/
theorem Mach.startNext_starts {c : Issued} (hold : m.oldest p q = some c) (hnew : c.started = false) (hres : c.result = none) (hpow : m.powered c = true)
    (hunits : m.resets.units = []) (hruns : m.partRuns p = true) :
    m.startNext p q = (m.setIssued { c with started := true }).startEngine { c with started := true } := by
  have hscope (x : Issued) : m.scopeInReset x = none := by simp [Mach.scopeInReset, hunits]
  simp [Mach.startNext, hold, hnew, hres, hpow, hruns, hscope]

/-- An operation on session items, beside BUILD and EMIT, acts on its items and keeps their statuses. -/
theorem Mach.seqStart_items {c : Issued} (hbuild : seqOp c.cmd ≠ 1) (hemit : seqOp c.cmd ≠ 2) : m.seqStart c =
    (let r := seqItems c.part (seqOp c.cmd) c.id c.cmd.p2 c.cmd.p3 0 m
     r.1.setIssued { (r.1.issuedOf c.id).getD c with result := some (itemsStatus r.2), progress := itemsDone r.2, itemSt := r.2.map some, items := c.cmd.p4 }) := by
  simp only [Mach.seqStart]

end

/-- A session command that is the oldest of its queue and may start acts on its items at once. -/
theorem State.run_session {s : State} {p q : Nat} {raw c : Cmd} {form : Cmd → Bool} (h : s.m.commandReady p q raw c = true) (hform : form c = true)
    (hop : c.opcode = 9) (hbuild : seqOp c ≠ 1) (hemit : seqOp c ≠ 2) :
    let j := s.m.joined p q c
    let m := j.demand (j.needs p q c)
    let x := s.m.joining p q c
    m.oldest p q = some x → m.powered x = true → m.resets.units = [] → m.partRuns p = true →
      State.run (decide (p < 16 ∧ q < 20)) (commandRow form p q raw) s = .next (s.onMach (fun _ =>
        let r := seqItems p (seqOp c) x.id c.p2 c.p3 0 (m.setIssued { x with started := true })
        r.1.setIssued { (r.1.issuedOf x.id).getD { x with started := true } with
          result := some (itemsStatus r.2), progress := itemsDone r.2, itemSt := r.2.map some, items := c.p4 })) := by
  intro j m x hold hpow hunits hruns
  refine State.run_eq (by simpa using commandReady_bounds h) ?_
  have hown : isSeqOp c.opcode = false := by rw [hop]; rfl
  have hstart : x.started = false ∧ x.result = none ∧ x.cmd = c ∧ x.part = p := ⟨rfl, rfl, rfl, rfl⟩
  obtain ⟨hnew, hres, hcmd, hpart⟩ := hstart
  have hengine (m' : Mach) : m'.startEngine { x with started := true } = m'.seqStart { x with started := true } := by
    simp only [Mach.startEngine, hcmd, hop]
  rw [commandRow_engine form h hform hown, Mach.startNext_starts hold hnew hres hpow hunits hruns, hengine,
    Mach.seqStart_items (by rwa [hcmd]) (by rwa [hcmd])]
  rfl

/-- Settles O16: each row is one of the operations on session items. -/
theorem sessionCommandsActOnTheirItems : Obligations.SessionCommandsActOnTheirItems := by
  intro s p q raw c h hop j m x hold hpow hunits hruns
  refine ⟨fun ho => ?_, fun ho => ?_, fun ho => ?_, fun ho => ?_, fun ho => ?_, fun ho => ?_, fun ho => ?_, fun ho => ?_, fun ho => ?_, fun ho => ?_⟩
  all_goals exact State.run_session h (by simp [hop, ho]) hop (by simp [ho]) (by simp [ho]) hold hpow hunits hruns

/-! ## One item (R264) -/

/-- Settles O17: the four outcomes of `Mach.seqItem` in the order of its checks, and the entry that each operation makes. -/
theorem sessionItemsChangeTheirEntry : Obligations.SessionItemsChangeTheirEntry := by
  intro m p op b hlow hhigh i e
  have hi : seqItemSession op b = i := rfl
  refine ⟨fun hrange => ?range, fun hrange hstate => ?state, fun hrange hstate hformat => ?format, fun hrange hstate hformat => ?effect⟩
  case range => simp [Mach.seqItem, hi, hrange]
  case state => simp [Mach.seqItem, hi, hrange, hstate, e]
  case format => simp [Mach.seqItem, hi, hrange, hstate, hformat, e]
  case effect =>
    have hdone : m.seqItem p op b = (m.setSess i (seqEffect p op b e), stOk) := by simp [Mach.seqItem, hi, hrange, hstate, hformat, e]
    rw [hdone]
    refine ⟨rfl, ?_, ?_, ?_, ?_, ?_, ?_, ?_, ?_, ?_, ?enters⟩
    case enters =>
      rintro rfl
      refine ⟨by simp [seqEffect], by simp [seqEffect], by simp [seqEffect], fun k hk => Mach.sess_setSess_other m hk _⟩
    all_goals
      rintro rfl
      rfl

/-! ## KERNEL (R139, R149) -/

/-- The data of a core that a KERNEL starts, with the background fills it has pending. -/
def kernelData (c : Issued) (fills : List IFill) : CoreData :=
  { CoreData.fresh with
    pc := c.cmd.p1 % 4096
    sregs := nset (fun _ => 0) (nset (fun _ => 0) (nset (fun _ => 0) [] 0 (BitVec.ofNat 64 c.cmd.p2)) 1 (BitVec.ofNat 64 c.cmd.p3)) 2 (BitVec.ofNat 64 c.cmd.p4)
    ifill := fills }

/-- The core itself. -/
def kernelCore (c : Issued) (fills : List IFill) : Core :=
  { Core.idle with run := true, d := kernelData c fills, before := kernelData c fills, kernel := some c.id }

/-- A KERNEL's start of one core of its group. -/
def startCore (c : Issued) (m : Mach) (n : Nat) : Mach := (m.setCore n (kernelCore c (m.coreD n).ifill)).wr .CORE_STAT_TRAPPED 0 n

/-- A KERNEL whose group is whole starts its cores one after another. -/
theorem Mach.kernelStart_whole {m : Mach} {c : Issued} (h : ∀ l ∈ m.groupPhys c.part (c.queue - 4), l ≠ none) :
    m.kernelStart c = (m.kernelCores c).foldl (startCore c) m := by
  have hwhole : (m.groupPhys c.part (c.queue - 4)).any Option.isNone = false := by
    simpa [Option.isNone_iff_eq_none] using h
  rw [Mach.kernelStart, hwhole]
  rfl

/-- Every core among those started runs the KERNEL. -/
theorem core_foldl_startCore (c : Issued) (m : Mach) (cores : List Nat) {n : Nat} (h : n ∈ cores) :
    ∃ fills, (cores.foldl (startCore c) m).core n = kernelCore c fills := by
  induction cores using List.reverseRecOn with
  | nil => cases h
  | append_singleton ks k ih =>
    rw [List.foldl_concat]
    by_cases hk : n = k
    · subst hk
      exact ⟨((ks.foldl (startCore c) m).coreD n).ifill, by simp [startCore]⟩
    · obtain ⟨fills, hfills⟩ := ih (by simpa [hk] using h)
      exact ⟨fills, by simp [startCore, Mach.core_setCore_other _ hk, hfills]⟩

/-- The registers of a core that a KERNEL starts: P2, P3, P4 and zeros. -/
theorem kernelData_s (c : Issued) (fills : List IFill) (r : Nat) : (kernelData c fills).s r =
    if r = 2 then BitVec.ofNat 64 c.cmd.p4 else if r = 1 then BitVec.ofNat 64 c.cmd.p3 else if r = 0 then BitVec.ofNat 64 c.cmd.p2 else 0 := by
  simp only [CoreData.s, kernelData]
  split_ifs with h2 h1 h0
  · rw [h2, nget_nset_same]
  · rw [nget_nset_other _ _ h2, h1, nget_nset_same]
  · rw [nget_nset_other _ _ h2, nget_nset_other _ _ h1, h0, nget_nset_same]
  · rw [nget_nset_other _ _ h2, nget_nset_other _ _ h1, nget_nset_other _ _ h0]
    rfl

/-- Settles O18: a group with a core lost starts nothing; of a whole one every core runs the KERNEL from its bundle with its parameters. -/
theorem kernelStartsEveryCoreOfItsGroup : Obligations.KernelStartsEveryCoreOfItsGroup := by
  intro m c n
  refine ⟨fun ⟨l, hl, hlost⟩ => ?lost, fun hwhole hn => ?whole⟩
  case lost =>
    have hany : (m.groupPhys c.part (c.queue - 4)).any Option.isNone = true := List.any_eq_true.mpr ⟨l, hl, by simp [hlost]⟩
    rw [Mach.kernelStart, hany, if_pos rfl]
  case whole =>
    obtain ⟨fills, hcore⟩ := core_foldl_startCore c m _ hn
    rw [← Mach.kernelStart_whole hwhole] at hcore
    simp only [hcore]
    refine ⟨rfl, rfl, rfl, kernelData_s c fills 0, kernelData_s c fills 1, kernelData_s c fills 2, fun r hr => ?_, rfl, rfl⟩
    have hrest : r ≠ 2 ∧ r ≠ 1 ∧ r ≠ 0 := by omega
    exact (kernelData_s c fills r).trans (by simp [hrest])

/-! ## Completion (R67, R100, R101, R270) -/

section
variable {m : Mach} {p q : Nat}

/-- A queue whose oldest command has not ended completes nothing. -/
theorem completeRun_running (h : ∀ d, m.oldest p q = some d → d.result = none) (k : Nat) : completeRun p q k m = m := by
  cases k with
  | zero => rfl
  | succ k =>
    rw [completeRun]
    split
    next d hd => rw [h d hd]
    next => rfl

/-- Where the oldest command has ended and the one behind it has not, the one completes, as its records stand after EMIT's, and the next may start. -/
theorem commandCompletion_one {m' : Mach} {c c' : Issued} {st0 st : Nat} (hold : m.oldest p q = some c) (hres : c.result = some st0)
    (hemit : m.emitNow c = (m', c')) (hst : c'.result = some st) (hnext : ∀ d, (m'.complete c' st).oldest p q = some d → d.result = none) :
    commandCompletion p q m = (m'.complete c' st).startNext p q := by
  obtain ⟨k, hk⟩ : ∃ k, m.sq.issued.length = k + 1 :=
    Nat.exists_eq_succ_of_ne_zero (List.length_pos_of_mem (List.mem_of_find?_eq_some hold)).ne'
  simp only [commandCompletion, hold, hres, Option.isSome_some, if_true, Mach.drainQueue, hk, completeRun, hemit, hst, Option.getD_some, completeRun_running hnext]

theorem commandCompletion_running (h : ∀ c, m.oldest p q = some c → c.result = none) : commandCompletion p q m = m := by
  rw [commandCompletion]
  split
  next c hc => simp [h c hc]
  next => rfl

/-- A command other than an EMIT that serves its rings has formed no records. -/
theorem Mach.emitNow_other {c : Issued} (h : c.cmd.opcode ≠ 9 ∨ c.extra ≠ [2]) : m.emitNow c = (m, c) :=
  if_neg (fun ⟨hop, hextra⟩ => h.elim (fun hne => hne hop) (fun hne => hne hextra))

end

/-- Settles O19: `commandCompletion_one` with what `Mach.emitNow` does of the two kinds of command. -/
theorem completionRetiresTheOldestCommand : Obligations.CompletionRetiresTheOldestCommand := by
  intro s p q hp hq ha
  refine ⟨fun c st hold hres hkind hnext => ?other, ?emit, fun h => ?running⟩
  case other => exact State.run_act_eq (by simp [hp, hq]) ha (commandCompletion_one hold hres (Mach.emitNow_other hkind) hres hnext)
  case emit =>
    intro c st hold hres hop hextra r m c' hnext
    exact State.run_act_eq (by simp [hp, hq]) ha (commandCompletion_one hold hres (if_pos ⟨hop, hextra⟩) rfl hnext)
  case running => exact State.run_act_fixed (by simp [hp, hq]) ha (commandCompletion_running h)

end Sys2Proof.Machine
end

section
/-! PROOFS. Work items of the stacks: they begin, take banks, travel and end (R202 to R211, R242 to R254). -/
namespace Sys2Proof.Machine

/-! ## Beginning -/

section
variable {m : Mach} {n kind : Nat} {it : Item}

/-- The bank that an ATTEND or PGEMV item begins on, and the item as it stands there. -/
def Mach.onFirstBank (m : Mach) (it : Item) : Item :=
  let b := pageBank ((m.itemPages it).headD 0)
  { it with
    pages := m.itemPages it
    page := 0
    phase := .onBank b
    work := pageCost { it with pages := m.itemPages it, page := 0, phase := .onBank b } 0 false }

theorem itemBegin_next (h : m.nextItem? n kind = some it) : itemBegin n kind m = m.beginItem it := by simp only [itemBegin, h]

/-- An item whose page list is uncorrectable ends at once. -/
theorem Mach.beginItem_listUe {a : Nat} (h : m.listUe it = some a) : m.beginItem it = ((m.noteRead true a 4).itemUe it a).finishItem it (some stPoison) := by
  simp only [Mach.beginItem, h]

/-- So does one that fails a check. -/
theorem Mach.beginItem_refused {st : Nat} (hlist : m.listUe it = none) (h : m.itemCheck it = some st) : m.beginItem it = m.finishItem it (some st) := by
  simp only [Mach.beginItem, hlist, h]

/-- A PGEMV item takes its first bank. -/
theorem Mach.beginItem_pgemv (hlist : m.listUe it = none) (hcheck : m.itemCheck it = none) (hkind : it.desc.kind ≠ 1) : m.beginItem it =
    (m.setItem { m.onFirstBank it with acc := startRows (m.onFirstBank it) [] }).occupy (m.onFirstBank it) (pageBank ((m.itemPages it).headD 0)) := by
  simp only [Mach.beginItem, hlist, hcheck, if_neg hkind]
  rfl

/-- An ATTEND item reads its queries first. -/
theorem Mach.beginItem_attend {m1 : Mach} {bs : Bytes} (hlist : m.listUe it = none) (hcheck : m.itemCheck it = none) (hkind : it.desc.kind = 1)
    (hread : m.readIn (m.onFirstBank it) it.inA (inLen it.desc it.fmt it.rows) = (m1, .ok bs)) : m.beginItem it =
    (m1.setItem { m.onFirstBank it with acc := startRows (m.onFirstBank it) bs }).occupy (m.onFirstBank it) (pageBank ((m.itemPages it).headD 0)) := by
  simp only [Mach.onFirstBank] at hread
  simp only [Mach.beginItem, hlist, hcheck, if_pos hkind, hread]
  rfl

/-- An APPEND that begins without taking a bank. -/
theorem appendItem_none {m' : Mach} (h : m.nextItem? n 3 = some it) (hbegin : m.beginAppend n it (fun m b => m.bankOpen n b) = (m', none)) : appendItem n m = m' := by
  simp only [appendItem, h, hbegin]

/-- One that takes its page's bank has its window and its write step next. -/
theorem appendItem_some {m' : Mach} {b : Nat} (h : m.nextItem? n 3 = some it) (hbegin : m.beginAppend n it (fun m b => m.bankOpen n b) = (m', some b)) :
    appendItem n m = m'.segmentEnd n b 64 := by
  simp only [appendItem, h, hbegin]

variable {free : Mach → Nat → Bool}

theorem Mach.beginAppend_listUe {a : Nat} (h : m.listUe it = some a) :
    m.beginAppend n it free = (((m.noteRead true a 4).itemUe it a).finishItem it (some stPoison), none) := by
  simp only [Mach.beginAppend, h]

theorem Mach.beginAppend_refused {st : Nat} (hlist : m.listUe it = none) (h : m.itemCheck it = some st) :
    m.beginAppend n it free = (m.finishItem it (some st), none) := by
  simp only [Mach.beginAppend, hlist, h]

section
variable {m1 m2 : Mach} {bs : Bytes} (hlist : m.listUe it = none) (hcheck : m.itemCheck it = none)
  (hread : m.readIn it it.inA (inLen it.desc it.fmt it.rows) = (m1, .ok bs))
include hlist hcheck hread

/-- An APPEND that gets no page ends with the reason. -/
theorem Mach.beginAppend_noPage {st : Nat} (hpage : m1.appendPage n it = (m2, .error st)) : m.beginAppend n it free =
    (m2.finishItem { it with unheldPop := st == stPoolEmpty && (m2.sess it.session).state != 3 } (some st), none) := by
  simp only [Mach.beginAppend, hlist, hcheck, hread, hpage]

/-- One that gets a page is placed there. -/
theorem Mach.beginAppend_page {g : Nat} {blank popped : Bool} (hpage : m1.appendPage n it = (m2, .ok (g, blank, popped))) :
    m.beginAppend n it free = m2.placeAppend n it bs g blank popped free := by
  simp only [Mach.beginAppend, hlist, hcheck, hread, hpage]

end

/-- An APPEND with its input and its page. -/
def appendReady (it : Item) (bs : Bytes) (g : Nat) (blank popped : Bool) : Item :=
  { it with pages := [g], page := 0, inB := bs, blank := blank, popped := popped }

/-- The same with the work of its write step. -/
def Mach.appendCosted (m : Mach) (n : Nat) (it : Item) (bs : Bytes) (g : Nat) (blank popped : Bool) : Item :=
  { appendReady it bs g blank popped with work := m.appendCost n (appendReady it bs g blank popped) }

section
variable {bs : Bytes} {g : Nat} {blank popped : Bool}

theorem Mach.placeAppend_waits (h : (m.itemTurn (m.appendCosted n it bs g blank popped) (pageBank g) && free m (pageBank g)) = false) :
    m.placeAppend n it bs g blank popped free = (m.setItem { m.appendCosted n it bs g blank popped with phase := .staged (pageBank g) }, none) :=
  if_neg (Bool.not_eq_true _ ▸ h)

theorem Mach.placeAppend_takes (h : (m.itemTurn (m.appendCosted n it bs g blank popped) (pageBank g) && free m (pageBank g)) = true) :
    m.placeAppend n it bs g blank popped free =
      ((m.setItem { m.appendCosted n it bs g blank popped with phase := .onBank (pageBank g) }).occupy (m.appendCosted n it bs g blank popped) (pageBank g), some (pageBank g)) :=
  if_pos h

end

/-- The write step of an APPEND that nothing has stopped, and its end. -/
theorem Mach.appendEnds_goesOn (hstopped : it.stopped = false) (hfailed : it.failed = none) : m.appendEnds n it =
    (let w := (appendStep n it).foldl (fun (r : Mach × Bool) x => ((r.1.writeDram x.1 x.2).1, r.2 || (r.1.writeDram x.1 x.2).2)) (m, false)
     let o := w.1.write it.part true it.outA (appendRecord (pageEntry (nthD it.pages 0 0)) (it.len / it.fmt.tpp) (it.len % it.fmt.tpp + 1) it.popped)
     if w.2 || o.2 then (o.1.itemUe it (pageAddr n (nthD it.pages 0 0))).finishItem it (some stPoison) else o.1.finishItem it none) := by
  simp [Mach.appendEnds, hstopped, hfailed]

end

/-- Settles O20: each clause is one branch of `Mach.beginItem`, `Mach.beginAppend` or `Mach.placeAppend`, and the last the write step. -/
theorem workItemsBegin : Obligations.WorkItemsBegin := by
  intro s n it ha hn pages b first
  have hfirst : first = s.m.onFirstBank it := rfl
  refine ⟨fun st hlist hcheck => ⟨fun h => ?_, fun h => ?_, fun h => ?_⟩, fun a hlist => ⟨fun h => ?_, fun h => ?_, fun h => ?_⟩,
    fun hlist hcheck => ⟨fun h hkind => ?pgemv, fun m1 bs h hkind hread => ?attend, fun m1 bs m2 st h hread hpage => ?noPage, ?page⟩⟩
  · exact State.run_act_eq (by simp [hn]) ha ((itemBegin_next h).trans (Mach.beginItem_refused hlist hcheck))
  · exact State.run_act_eq (by simp [hn]) ha ((itemBegin_next h).trans (Mach.beginItem_refused hlist hcheck))
  · exact State.run_act_eq (by simp [hn]) ha (appendItem_none h (Mach.beginAppend_refused hlist hcheck))
  · exact State.run_act_eq (by simp [hn]) ha ((itemBegin_next h).trans (Mach.beginItem_listUe hlist))
  · exact State.run_act_eq (by simp [hn]) ha ((itemBegin_next h).trans (Mach.beginItem_listUe hlist))
  · exact State.run_act_eq (by simp [hn]) ha (appendItem_none h (Mach.beginAppend_listUe hlist))
  case pgemv => exact State.run_act_eq (by simp [hn]) ha ((itemBegin_next h).trans (Mach.beginItem_pgemv hlist hcheck hkind))
  case attend => exact State.run_act_eq (by simp [hn]) ha ((itemBegin_next h).trans (Mach.beginItem_attend hlist hcheck hkind hread))
  case noPage => exact State.run_act_eq (by simp [hn]) ha (appendItem_none h (Mach.beginAppend_noPage hlist hcheck hread hpage))
  case page =>
    intro m1 bs m2 g blank popped h hread hpage it0 it1
    refine ⟨fun hwait => ?waits, fun hturn hopen => ?takes, ?writes⟩
    case waits =>
      have hplace : (m2.itemTurn it1 (pageBank g) && m2.bankOpen n (pageBank g)) = false := Bool.and_eq_false_iff.mpr hwait
      exact State.run_act_eq (by simp [hn]) ha (appendItem_none h ((Mach.beginAppend_page hlist hcheck hread hpage).trans (Mach.placeAppend_waits hplace)))
    case takes =>
      have hplace : (m2.itemTurn it1 (pageBank g) && m2.bankOpen n (pageBank g)) = true := Bool.and_eq_true_iff.mpr ⟨hturn, hopen⟩
      exact State.run_act_eq (by simp [hn]) ha (appendItem_some h ((Mach.beginAppend_page hlist hcheck hread hpage).trans (Mach.placeAppend_takes hplace)))
    case writes =>
      intro hfailed hstopped k slot a ws m3
      exact Mach.appendEnds_goesOn (it := it1) hstopped hfailed

end Sys2Proof.Machine
end

section
/-! PROOFS. How items go from bank to bank, and what a bank's segment does (R205, R208, R210, R211, R244, R254). -/
namespace Sys2Proof.Machine

section
variable {m : Mach} {n b : Nat} {it : Item}

/-! ## Taking a bank -/

theorem itemBankTake_first (h : m.items.find? (m.mayTake n) = some it) (hstaged : it.phase = .staged b) : itemBankTake n m = m.takeBank n b it := by
  simp only [itemBankTake, h, hstaged, ItemPhase.stagedAt]

/-- A bank that holds another record, or none, is taken as it is. -/
theorem Mach.takeBank_other (h : ((m.bank n b).staged == some it.id) = false) : m.takeBank n b it = (m.setItem { it with phase := .onBank b }).occupy it b := by
  simp only [Mach.takeBank, h, Bool.false_and, Bool.false_eq_true, if_false]

/-- An item whose own record there is uncorrectable fails. -/
theorem Mach.takeBank_wrong (hown : (m.bank n b).staged = some it.id) (hwrong : (m.bank n b).scratchWrong = true) (hfailed : it.failed = none) :
    m.takeBank n b it =
      (let m := m.itemUe it (pageAddr n (nthD it.pages it.page 0))
       ((m.setBank n b { m.bank n b with scratchWrong := false }).setItem { it with phase := .onBank b, failed := some stPoison }).occupy it b) := by
  simp only [Mach.takeBank, hown, beq_self_eq_true, hwrong, hfailed, Option.isNone_none, Bool.and_self, if_true]

/-! ## Records that arrive -/

/-- The choice of the item that asked first, among those seen so far. -/
def earlier (r : Option Item) (x : Item) : Option Item :=
  match r with
  | some y => if x.asked < y.asked then some x else some y
  | none => some x

/-- The choice over a list is one of its items, or the first choice, and none asked before it. -/
theorem foldl_earlier_some (l : List Item) (y : Item) : ∃ z, l.foldl earlier (some y) = some z ∧ (z = y ∨ z ∈ l) ∧ z.asked ≤ y.asked ∧ ∀ x ∈ l, z.asked ≤ x.asked := by
  induction l generalizing y with
  | nil => exact ⟨y, rfl, .inl rfl, le_rfl, by simp⟩
  | cons x xs ih =>
    by_cases hlt : x.asked < y.asked
    · obtain ⟨z, hz, hmem, hle, hall⟩ := ih x
      have hx : earlier (some y) x = some x := if_pos hlt
      refine ⟨z, by rw [List.foldl_cons, hx, hz], .inr ?_, by omega, ?_⟩
      · exact hmem.elim (fun h => h ▸ List.mem_cons_self) (List.mem_cons_of_mem x)
      · exact List.forall_mem_cons.mpr ⟨hle, hall⟩
    · obtain ⟨z, hz, hmem, hle, hall⟩ := ih y
      have hy : earlier (some y) x = some y := if_neg hlt
      refine ⟨z, by rw [List.foldl_cons, hy, hz], hmem.imp_right (List.mem_cons_of_mem x), hle, ?_⟩
      exact List.forall_mem_cons.mpr ⟨by omega, hall⟩

/-- Of the items of a list, the choice is one that none asked before. -/
theorem foldl_earlier {l : List Item} (h : l.foldl earlier none = some it) : it ∈ l ∧ ∀ x ∈ l, it.asked ≤ x.asked := by
  cases l with
  | nil => cases h
  | cons y ys =>
    obtain ⟨z, hz, hmem, hle, hall⟩ := foldl_earlier_some ys y
    have hzit : z = it := Option.some.inj (hz.symm.trans h)
    subst hzit
    exact ⟨List.mem_cons.mpr hmem, List.forall_mem_cons.mpr ⟨hle, hall⟩⟩

/-- The record that arrives may arrive, and asked first of those that may (R208). -/
theorem Mach.firstRecord_spec (h : m.firstRecord n = some it) :
    m.mayArrive n it = true ∧ it ∈ m.items ∧ ∀ x ∈ m.items, m.mayArrive n x = true → it.asked ≤ x.asked := by
  obtain ⟨hmem, hfirst⟩ : it ∈ m.items.filter (m.mayArrive n) ∧ ∀ x ∈ m.items.filter (m.mayArrive n), it.asked ≤ x.asked := foldl_earlier h
  rw [List.mem_filter] at hmem
  exact ⟨hmem.2, hmem.1, fun x hx hmay => hfirst x (List.mem_filter.mpr ⟨hx, hmay⟩)⟩

theorem recordArrival_first (h : m.firstRecord n = some it) (hsent : it.phase = .sending b) : recordArrival n m =
    (let b' := pageBank (nthD it.pages it.page 0)
     let m := m.setBank n b { m.bank n b with sending := none }
     (m.setItem { it with phase := .staged b' }).setBank n b' (if m.direct n it then m.bank n b' else { m.bank n b' with staged := some it.id })) := by
  simp only [recordArrival, h, hsent, ItemPhase.sentFrom]

/-! ## Segments -/

theorem bankYield_segment (hseg : (m.bank n b).phase = .segment) (hrun : m.running (quadDom n (b / 128)) = true) :
    bankYield n b m = ((seqWork n b 256 (m.bank n b).left m).yieldPoint n b).afterSegment n b := by
  simp [bankYield, hseg, hrun, Mach.segmentEnd]

section
variable {k budget : Nat} (hocc : (m.bank n b).occupant = some it.id) (hitem : m.itemOf it.id = some it)
include hocc hitem

/-- A page's work that the segment does not finish stays for the next. -/
theorem seqWork_partial (hkind : it.desc.kind ≠ 3) (hwork : budget < it.work) : seqWork n b (k + 1) budget m = m.setItem { it with work := it.work - budget } := by
  simp only [seqWork, hocc, hitem, if_neg hkind, if_pos hwork]

/-- A page's work that it finishes ends the page, and the segment goes on. -/
theorem seqWork_page (hkind : it.desc.kind ≠ 3) (hwork : it.work ≤ budget) : seqWork n b (k + 1) budget m = seqWork n b k (budget - it.work) (m.pageEnds n b it) := by
  simp only [seqWork, hocc, hitem, if_neg hkind, if_neg (Nat.not_lt.mpr hwork)]

/-- A write step waits for a segment that it fits. -/
theorem seqWork_appendWaits (hkind : it.desc.kind = 3) (hwork : budget < it.work) (hpart : budget ≠ 64) : seqWork n b (k + 1) budget m = m := by
  have hwait : ¬ (it.work ≤ budget ∨ budget = 64) := by omega
  simp only [seqWork, hocc, hitem, if_pos hkind, if_neg hwait]

/-- And runs whole in it. -/
theorem seqWork_append (hkind : it.desc.kind = 3) (hwork : it.work ≤ budget ∨ budget = 64) : seqWork n b (k + 1) budget m =
    seqWork n b k (budget - it.work) (((m.setBank n b { m.bank n b with engineRow := some (nthD it.pages 0 0 % 8192 * 4 + 3) }).leaveBank n b none).appendEnds n it) := by
  simp only [seqWork, hocc, hitem, if_pos hkind, if_pos hwork]

/-- A bank that does not go offline and whose item no reset has ended has nothing to do at a yield point. -/
theorem Mach.yieldPoint_quiet (hoff : (m.bank n b).goingOffline = false) (hfailed : it.failed ≠ some stReset) : m.yieldPoint n b = m := by
  simp [Mach.yieldPoint, Mach.offlineYield, Mach.resetYield, hoff, hocc, hitem, hfailed]

end

/-! ## The end of a page -/

/-- The block once an item's page has been folded on a bank, and the item with its next page. -/
def Mach.pageFolded (m : Mach) (n b : Nat) (it : Item) : Mach :=
  (m.foldPage it).1.setBank n b { (m.foldPage it).1.bank n b with engineRow := some (nthD (m.foldPage it).2.pages (m.foldPage it).2.page 0 % 8192 * 4 + 3) }

def Mach.nextPage (m : Mach) (it : Item) : Item := { (m.foldPage it).2 with page := (m.foldPage it).2.page + 1 }

theorem Mach.pageEnds_last (h : (m.nextPage it).pages[(m.nextPage it).page]? = none) :
    m.pageEnds n b it = ((m.pageFolded n b it).leaveBank n b none).endItem (m.nextPage it) := by
  simp only [Mach.nextPage] at h
  simp only [Mach.pageEnds, h]
  rfl

theorem Mach.pageEnds_here {g : Nat} (h : (m.nextPage it).pages[(m.nextPage it).page]? = some g) (hg : pageBank g = b) :
    m.pageEnds n b it = (m.pageFolded n b it).setItem { m.nextPage it with work := pageCost (m.nextPage it) (m.nextPage it).page false } := by
  simp only [Mach.nextPage] at h
  simp only [Mach.pageEnds, h, if_pos hg]
  rfl

theorem Mach.pageEnds_there {g : Nat} (h : (m.nextPage it).pages[(m.nextPage it).page]? = some g) (hg : pageBank g ≠ b) :
    m.pageEnds n b it = ({ (m.pageFolded n b it).setItem { m.nextPage it with
        phase := .sending b, work := pageCost (m.nextPage it) (m.nextPage it).page true, asked := (m.pageFolded n b it).nextItem } with
      nextItem := (m.pageFolded n b it).nextItem + 1 } : Mach).leaveBank n b (some (m.nextPage it).id) := by
  simp only [Mach.nextPage] at h
  simp only [Mach.pageEnds, h, if_neg hg]
  rfl

end

/-- Settles O21: the clauses of taking a bank, of a record's arrival, and of a segment's first piece of work. -/
theorem itemsMoveFromBankToBank : Obligations.ItemsMoveFromBankToBank := by
  intro s n b it ha hn hb
  refine ⟨fun h hstaged => ⟨fun hother => ?other, fun hown hwrong hfailed => ?wrong⟩, Mach.firstRecord_spec, fun b' h hsent hb' => ?arrives, ?segment⟩
  case other => exact State.run_act_eq (by simp [hn]) ha ((itemBankTake_first h hstaged).trans (Mach.takeBank_other hother))
  case wrong => exact State.run_act_eq (by simp [hn]) ha ((itemBankTake_first h hstaged).trans (Mach.takeBank_wrong hown hwrong hfailed))
  case arrives =>
    subst hb'
    exact State.run_act_eq (by simp [hn]) ha (recordArrival_first h hsent)
  case segment =>
    intro hocc hitem hseg hrun left folded row done it' goesOn
    have hyield {m' : Mach} (h : seqWork n b 256 (s.m.bank n b).left s.m = m') :
        exec (.bankYieldPoint n b) s = .next (s.onMach (fun _ => (m'.yieldPoint n b).afterSegment n b)) :=
      State.run_act_eq (by simp [hn, hb]) ha ((bankYield_segment hseg hrun).trans (by rw [h]))
    refine ⟨fun hkind hwork => ?partly, fun hkind hwork hpage => ?last, fun g hkind hwork hpage hg => ?here, fun g hkind hwork hpage hg => ?there,
      fun hkind hwork hpart => ?appendWaits, fun hkind hwork => ?append, Mach.yieldPoint_quiet hocc hitem⟩
    case partly => exact hyield (seqWork_partial hocc hitem hkind hwork)
    case last => exact hyield ((seqWork_page hocc hitem hkind hwork).trans (congrArg _ (Mach.pageEnds_last hpage)))
    case here => exact hyield ((seqWork_page hocc hitem hkind hwork).trans (congrArg _ (Mach.pageEnds_here hpage hg)))
    case there => exact hyield ((seqWork_page hocc hitem hkind hwork).trans (congrArg _ (Mach.pageEnds_there hpage hg)))
    case appendWaits => exact hyield (seqWork_appendWaits hocc hitem hkind hwork hpart)
    case append => exact hyield (seqWork_append hocc hitem hkind hwork)

end Sys2Proof.Machine
end

section
/-! PROOFS. Service periods, refresh slots and the throttle flag, forgets and pool additions (R45, R197, R210 to R214, R221, R223, R224, R235). -/
namespace Sys2Proof.Machine

/-! ## Service periods (R210, R212, R213, R223) -/

/-- One cycle for 32 bytes, begun or whole. -/
theorem ceilDiv_32 (a : Nat) : ceilDiv a 32 = (a + 31) / 32 := by
  have hdivisor : (a % 32 = 0 ∨ 32 = 0) ↔ a % 32 = 0 := by simp
  rw [ceilDiv, if_congr hdivisor rfl rfl]
  split_ifs <;> omega

section
variable {m : Mach} {n b : Nat}

theorem serveWaits_fits {w : BankAccess} (rest : List BankAccess) {left : Nat} (h : (w.len + 31) / 32 ≤ left) :
    serveWaits (w :: rest) left m = serveWaits rest (left - (w.len + 31) / 32) (m.serveAccess w) := by
  simp only [serveWaits, ceilDiv_32, if_pos h]

theorem serveWaits_stops {w : BankAccess} (rest : List BankAccess) {left : Nat} (h : left < (w.len + 31) / 32) :
    serveWaits (w :: rest) left m = (m, w :: rest) := by
  simp only [serveWaits, ceilDiv_32, if_neg (Nat.not_le.mpr h)]

/-- The accesses of a bank in the order they are served: the die's classes, then the host's. -/
def Bank.order (k : Bank) : List BankAccess := k.waits.filter (fun w => !w.hostClass) ++ k.waits.filter (·.hostClass)

/-- The block with the waits of the served accesses counted in HOLDMAX. -/
def heldMax (n : Nat) (served : List BankAccess) (m : Mach) : Mach :=
  served.foldl (fun m w => m.wr .STACK_ACC_HOLDMAX (max (m.rd .STACK_ACC_HOLDMAX n) (min w.age 0xFFFF)) n) m

theorem bankService_segment (h : (m.bank n b).phase = .segment) : bankService n b m = m := by simp [bankService, h]

/-- A bank without an item serves and is idle again. -/
theorem bankService_idle (h : (m.bank n b).phase ≠ .segment) (hocc : (m.bank n b).occupant.isSome = false) : bankService n b m =
    (let r := serveWaits (m.bank n b).order 8 m
     let held := heldMax n ((m.bank n b).order.take ((m.bank n b).order.length - r.2.length)) r.1
     drainTrace 4096 false (held.setBank n b { held.bank n b with waits := r.2.map (fun w => { w with age := w.age + 8 }), phase := .idle })) := by
  have hlate (w : BankAccess) : (w.deferred || (none : Option BankAccess) == some w) = w.deferred := by simp
  simp only [bankService, beq_iff_eq, if_neg h, hocc, Bool.false_and, Bool.false_eq_true, if_false, Option.isSome_none, hlate]
  rfl

/-- A bank with an item serves in its window and goes on with a segment. -/
theorem bankService_window (h : (m.bank n b).phase ≠ .segment) (hocc : (m.bank n b).occupant.isSome = true) : bankService n b m =
    (let r := serveWaits (m.bank n b).order (if (m.bank n b).throttled then 80 else 8) m
     let held := heldMax n ((m.bank n b).order.take ((m.bank n b).order.length - r.2.length)) r.1
     let late := r.2.find? (fun w => w.hostClass && !w.deferred)
     let m' := if late.isSome then held.inc .STACK_ACC_HOSTDEFER 1 n else held
     let waits := r.2.map (fun w => { w with age := w.age + (if (m.bank n b).throttled then 144 else 72), deferred := w.deferred || late == some w })
     let m' := drainTrace 4096 false (m'.setBank n b { m'.bank n b with waits := waits, phase := .window })
     m'.setBank n b { m'.bank n b with phase := .segment, left := 64 }) := by
  simp only [bankService, beq_iff_eq, if_neg h, hocc, Bool.true_and, if_true]
  rfl

end

/-- Settles O22: the three kinds of period, and the accesses that fit or do not. -/
theorem servicePeriodsServeAccesses : Obligations.ServicePeriodsServeAccesses := by
  intro s n b ha hn hb k occupied order r served held late
  refine ⟨fun hseg => ?segment, fun hseg hocc => ?idle, fun hseg hocc => ?window, fun w rest left m => ⟨rfl, serveWaits_fits rest, serveWaits_stops rest⟩⟩
  case segment => exact State.run_act_fixed (by simp [hn, hb]) ha (bankService_segment hseg)
  case idle =>
    have hbudget : (if occupied && k.throttled then 80 else 8) = 8 := by simp [hocc]
    exact State.run_act_eq (by simp [hn, hb]) ha ((bankService_idle hseg hocc).trans (by simp only [held, served, r, hbudget]; rfl))
  case window =>
    have hbudget : (if occupied && k.throttled then 80 else 8) = if k.throttled then 80 else 8 := by simp [hocc]
    exact State.run_act_eq (by simp [hn, hb]) ha ((bankService_window hseg hocc).trans (by simp only [held, served, late, r, hbudget]; rfl))

/-! ## Refresh slots and the temperature flags (R45, R197, R214, R223, R224) -/

/-- What a refresh slot does to one bank. -/
def slotBank (n b : Nat) (m : Mach) : Mach := (m.cutSegment n b).setBank n b ((m.cutSegment n b).bank n b).slotted

/-- A refresh slot takes the banks of its quadrant one after another. -/
theorem refreshSlot_eq (n q : Nat) (m : Mach) : refreshSlot n q m = (List.range 128).foldl (fun m i => slotBank n (128 * q + i) m) m := rfl

/-- A bank's running segment is cut; a bank in none is left. -/
theorem Mach.cutSegment_eq (m : Mach) (n b : Nat) : m.cutSegment n b =
    if (m.bank n b).phase = .segment then m.draw.2.segmentEnd n b (m.draw.1 % max 1 (m.bank n b).left) else m := by
  simp only [Mach.cutSegment, beq_iff_eq]

/-- A write of one bank leaves the others. -/
theorem Mach.bank_setBank_other (m : Mach) {n b n' b' : Nat} (hb : b < 512) (hb' : b' < 512) (h : n' ≠ n ∨ b' ≠ b) (v : Bank) :
    (m.setBank n b v).bank n' b' = m.bank n' b' := nget_nset_other _ _ (by omega) _

/-- Where no bank of the quadrant is in a segment, the slots of its first k banks touch nothing else. -/
theorem bank_foldl_slotBank {m : Mach} {n q : Nat} (hq : q < 4) (hidle : ∀ b, b < 512 → b / 128 = q → (m.bank n b).phase ≠ .segment) (k : Nat) (hk : k ≤ 128)
    (n' b' : Nat) (hb' : b' < 512) : ((List.range k).foldl (fun m i => slotBank n (128 * q + i) m) m).bank n' b' =
      if n' = n ∧ 128 * q ≤ b' ∧ b' < 128 * q + k then (m.bank n' b').slotted else m.bank n' b' := by
  induction k generalizing n' b' with
  | zero => rw [if_neg (by omega)]; rfl
  | succ k ih =>
    rw [List.range_succ, List.foldl_concat]
    have hbound : 128 * q + k < 512 := by omega
    have hown := ih (by omega) n (128 * q + k) hbound
    rw [if_neg (by omega)] at hown
    have hcut : ((List.range k).foldl (fun m i => slotBank n (128 * q + i) m) m).cutSegment n (128 * q + k) =
        (List.range k).foldl (fun m i => slotBank n (128 * q + i) m) m := by
      rw [Mach.cutSegment_eq, hown, if_neg (hidle _ hbound (by omega))]
    rw [slotBank, hcut, hown]
    by_cases hsame : n' = n ∧ b' = 128 * q + k
    · obtain ⟨rfl, rfl⟩ := hsame
      rw [Mach.bank_setBank_same, if_pos (by omega)]
    · rw [Mach.bank_setBank_other _ hbound hb' (by tauto), ih (by omega) n' b' hb']
      congr 1
      simp only [eq_iff_iff]
      omega

/-- A throttle onset is counted and reported, and takes the stack's commands out of the envelope. -/
theorem throttleOnset_new {m : Mach} {n : Nat} (h : (m.stack n).throt = false) : throttleOnset n m =
    (((m.setStack n { m.stack n with throt := true }).inc .STACK_TEMP_COUNT 1 n).post ⟨0, 0, 0, 9, 2 + n, fkThrottle⟩).throttleOut n := by
  simp [throttleOnset, h]

theorem throttleOnset_again {m : Mach} {n : Nat} (h : (m.stack n).throt = true) : throttleOnset n m = m := by simp [throttleOnset, h]

theorem throttleOnsetAt_awake {m : Mach} {n : Nat} (h : m.awake = true) : throttleOnsetAt n m = throttleOnset n m := by simp [throttleOnsetAt, h]

/-- Settles O23: the slot bank by bank, its banks by `bank_foldl_slotBank`, and the flags. -/
theorem refreshAndThrottle : Obligations.RefreshAndThrottle := by
  intro s n q hn hq
  have hslot : exec (.refreshSlot n q) s = .next (s.onMach (refreshSlot n q)) := State.run_true _ s (by simp [hn, hq])
  refine ⟨?slot, ⟨_, hslot, fun hidle n' b' hb' => ?banks⟩, fun hot => ?calendar, ?clear, fun ha h => ?again, fun ha h => ?onset⟩
  case slot =>
    rw [hslot]
    simp only [State.onMach, refreshSlot_eq, slotBank, Mach.cutSegment_eq]
  case banks =>
    have hquad : (n' = n ∧ 128 * q ≤ b' ∧ b' < 128 * q + 128) ↔ (n' = n ∧ b' / 128 = q) := by omega
    simp only [State.onMach, refreshSlot_eq, bank_foldl_slotBank hq hidle 128 le_rfl n' b' hb', hquad, Bank.slotted]
  case calendar => exact State.run_true _ s (by simp [hn])
  case clear => exact State.run_true _ s (by simp [hn])
  case again => exact State.run_fixed (by simp [hn]) ((throttleOnsetAt_awake ha).trans (throttleOnset_again h))
  case onset => exact State.run_eq (by simp [hn]) ((throttleOnsetAt_awake ha).trans (throttleOnset_new h))

/-! ## Forgets and pool additions (R18, R221, R235) -/

section
variable {m : Mach} {p n : Nat}

/-- The block with FORGET's fields written. -/
def Mach.forgetFields (m : Mach) (n x y : Nat) : Mach := (m.wr .STACK_FORGET_BASE x n).wr .STACK_FORGET_LEN y n

theorem stackForgetGo_starts {x y : Nat} (hbusy : (m.forgetFields n x y).flag .STACK_FORGETST_BUSY n = false) (hlen : (m.forgetFields n x y).rd .STACK_FORGET_LEN n ≠ 0)
    (hrange : (m.forgetFields n x y).rd .STACK_FORGET_BASE n + (m.forgetFields n x y).rd .STACK_FORGET_LEN n ≤ 2 ^ 25) : stackForgetGo n x y m =
    (let fg := m.forgetFields n x y
     { (fg.invalidateGranules n (fg.rd .STACK_FORGET_BASE n) (fg.rd .STACK_FORGET_LEN n)).wr .STACK_FORGETST_BUSY 1 n with
       forgets := fg.forgets ++ [⟨n, fg.rd .STACK_FORGET_BASE n, fg.rd .STACK_FORGET_LEN n, .register⟩] }) := by
  refine if_neg ?_
  simp only [Mach.forgetFields] at hbusy hlen hrange
  simpa [hbusy, hlen, -Mach.rd_wr_same, -Mach.rd_wr_fld] using hrange

theorem stackForgetGo_refused {x y : Nat} (h : (m.forgetFields n x y).flag .STACK_FORGETST_BUSY n = true ∨ (m.forgetFields n x y).rd .STACK_FORGET_LEN n = 0 ∨
    2 ^ 25 < (m.forgetFields n x y).rd .STACK_FORGET_BASE n + (m.forgetFields n x y).rd .STACK_FORGET_LEN n) :
    stackForgetGo n x y m = ((m.forgetFields n x y).wr .STACK_FORGETST_REFUSED 1 n).badAcc := by
  refine if_pos ?_
  simp only [Mach.forgetFields] at h
  simpa [or_assoc] using h

theorem forgetDone_register {x y : Nat} {rest : List Forget} (h : m.forgets = ⟨n, x, y, .register⟩ :: rest) : forgetDone n m =
    (((({ m with forgets := rest } : Mach).invalidateGranules n x y).clearGranules n x y).wr .STACK_FORGETST_BUSY 0 n).wr .STACK_FORGETST_DONE 1 n := by
  simp [forgetDone, h, Mach.forgetNow]

/-- The block with ADD's fields written. -/
def Mach.addFields (m : Mach) (p n x y : Nat) : Mach := (m.wr .SEC_POOL_ADD_FIRST x p n).wr .SEC_POOL_ADD_COUNT y p n

theorem poolAddGo_starts {x y : Nat} (hnone : (m.addFields p n x y).addOf p n = none) (hon : (m.addFields p n x y).flag .SEC_POOL_CFG_ENABLE p n = true)
    (hcount : (m.addFields p n x y).rd .SEC_POOL_ADD_COUNT p n ≠ 0)
    (hrange : (m.addFields p n x y).rd .SEC_POOL_ADD_FIRST p n + (m.addFields p n x y).rd .SEC_POOL_ADD_COUNT p n ≤ 4194304)
    (hrights : ∀ i < (m.addFields p n x y).rd .SEC_POOL_ADD_COUNT p n,
      (m.addFields p n x y).allowedRW p (pageAddr n ((m.addFields p n x y).rd .SEC_POOL_ADD_FIRST p n + i)) 8192 = true)
    (hroom : (m.addFields p n x y).rd .SEC_POOL_COUNT_FREE p n + (m.addFields p n x y).rd .SEC_POOL_ADD_COUNT p n ≤ 2 ^ (m.addFields p n x y).rd .SEC_POOL_CFG_LOG2 p n) :
    poolAddGo p n x y m =
      (let ad := m.addFields p n x y
       let m := ad.forgetNow n (pageGranule (ad.rd .SEC_POOL_ADD_FIRST p n)) (8 * ad.rd .SEC_POOL_ADD_COUNT p n)
       { m.wr .SEC_POOL_ADDST_BUSY 1 p n with adds := (poolKey p n, ad.rd .SEC_POOL_ADD_FIRST p n, ad.rd .SEC_POOL_ADD_COUNT p n) :: m.adds }) := by
  refine if_neg ?_
  simp only [Mach.addFields] at hnone hon hcount hrange hrights hroom
  simpa [hnone, hon, hcount, hrange, hroom, -Mach.rd_wr_same, -Mach.rd_wr_fld] using hrights

theorem poolAddGo_disabled {x y : Nat} (h : (m.addFields p n x y).flag .SEC_POOL_CFG_ENABLE p n = false) :
    poolAddGo p n x y m = ((m.addFields p n x y).wr .SEC_POOL_ADDST_REFUSED 1 p n).badAcc := by
  refine if_pos ?_
  simp only [Mach.addFields] at h
  simp [h]

theorem poolAddDone_running {x y : Nat} (h : m.addOf p n = some (x, y)) : poolAddDone p n m =
    (((List.range y).foldl (fun m i => Mach.pushPage m p n (x + i)) { m with adds := m.adds.filter (fun a => a.1 != poolKey p n) }).wr .SEC_POOL_ADDST_BUSY 0 p n).wr
      .SEC_POOL_ADDST_DONE 1 p n := by
  simp only [poolAddDone, h]

/-- An effect that firmware must have started for, before and after it has. -/
theorem served_firmware (f : Mach → Mach) (h : m.firmware = true) : served f m = f m := by simp [served, h]

theorem served_noFirmware (f : Mach → Mach) (h : m.firmware = false) : served f m = m.badAcc := by simp [served, h]

end

/-- Settles O24: the branches of the two registers' GO bits, and the two ends. -/
theorem forgetsAndPoolAdds : Obligations.ForgetsAndPoolAdds := by
  intro s who p n x y hp hn fg base len ad first count
  refine ⟨fun h => ⟨fun hbusy hlen hrange => ?forget, fun hbad => ?refused⟩, fun rest ha hf => ?done, fun h hfw => ?early, fun h hfw => ⟨?add, fun hoff => ?disabled⟩, fun ha hadd => ?added⟩
  case forget => exact State.run_served (by simp [hn]) h (stackForgetGo_starts hbusy hlen hrange)
  case refused => exact State.run_served (by simp [hn]) h (stackForgetGo_refused hbad)
  case done => exact State.run_act_eq (by simp [hn]) ha (forgetDone_register hf)
  case early => exact State.run_served (by simp [hp, hn]) h (served_noFirmware _ hfw)
  case add =>
    intro hnone hon hcount hrange hrights hroom m
    exact State.run_served (by simp [hp, hn]) h ((served_firmware _ hfw).trans (poolAddGo_starts hnone hon hcount hrange hrights hroom))
  case disabled => exact State.run_served (by simp [hp, hn]) h ((served_firmware _ hfw).trans (poolAddGo_disabled hoff))
  case added => exact State.run_act_eq (by simp [hp, hn]) ha (poolAddDone_running hadd)

end Sys2Proof.Machine
end

section
/-! PROOFS. The scalar slot and the sync slot of a bundle: results, control, waits, barriers and ends (R115, R116, R120, R124 to R128, R138 to R145). -/
namespace Sys2Proof.Machine

/-! ## A slot whose turn has come -/

section
variable {s : State} {n k w op : Nat} {f : Nat → Mach → Act} {g : Mach → Mach} (h : s.m.slotReady n k w = true) (ho : w % 256 = op)
include h ho

omit ho in
/-- An operation whose turn has come acts on the block once its bundle has begun. -/
theorem State.run_slot (hg : s.m.slotRow n k op f = g (s.m.begun n)) :
    State.run (decide (n < 192)) (act (fun m => m.slotRow n k op f)) s = .next ((s.onMach (fun m => m.begun n)).onMach g) :=
  State.run_act_eq (g := fun m => g (m.begun n)) (by simp [(Mach.slotReady_awake h).2]) (Mach.slotReady_awake h).1 hg

/-- An operation that acts lets the bundle go on. -/
theorem State.run_slot_done {m' : Mach} (hf : f w (s.m.begun n) = .done m') (hg : m'.endSlot n k = g (s.m.begun n)) :
    State.run (decide (n < 192)) (act (fun m => m.slotRow n k op f)) s = .next ((s.onMach (fun m => m.begun n)).onMach g) :=
  State.run_slot h ((Mach.slotRow_ready op f h ho).trans (by rw [hf]; exact hg))

/-- One that traps takes the bundle's effects back. -/
theorem State.run_slot_trap {kind : Nat} (hf : f w (s.m.begun n) = .trap kind) :
    State.run (decide (n < 192)) (act (fun m => m.slotRow n k op f)) s = .next ((s.onMach (fun m => m.begun n)).onMach (fun m => m.trapBundle n kind)) :=
  State.run_slot h ((Mach.slotRow_ready op f h ho).trans (by rw [hf]))

/-- One that meets an uncorrectable error traps with that. -/
theorem State.run_slot_trapUe {a len : Nat} (hf : f w (s.m.begun n) = .trapUe a len) : State.run (decide (n < 192)) (act (fun m => m.slotRow n k op f)) s =
    .next ((s.onMach (fun m => m.begun n)).onMach (fun m => (m.noteRead false a len).trapBundle n fkDataUe)) :=
  State.run_slot h ((Mach.slotRow_ready op f h ho).trans (by rw [hf]))

/-- One that waits costs a stalled cycle. -/
theorem State.run_slot_wait (hf : f w (s.m.begun n) = .wait) :
    State.run (decide (n < 192)) (act (fun m => m.slotRow n k op f)) s = .next ((s.onMach (fun m => m.begun n)).onMach (fun m => m.stallCycle n)) :=
  State.run_slot h ((Mach.slotRow_ready op f h ho).trans (by rw [hf]))

/-- One that holds the core leaves it where it says. -/
theorem State.run_slot_hold {m' : Mach} (hf : f w (s.m.begun n) = .hold m') (hg : m' = g (s.m.begun n)) :
    State.run (decide (n < 192)) (act (fun m => m.slotRow n k op f)) s = .next ((s.onMach (fun m => m.begun n)).onMach g) :=
  State.run_slot h ((Mach.slotRow_ready op f h ho).trans (by rw [hf]; exact hg))

end

/-! ## Results (R124, R125) -/

section
variable {s : State} {n w op : Nat} (h : s.m.slotReady n 2 w = true) (ho : w % 256 = op)
include h ho

/-- A scalar operation sends its result on its way. -/
theorem State.run_scalarRow (lat : Nat) (f : CoreData → Nat → Word64) :
    State.run (decide (n < 192)) (act (scalarRow n op lat f)) s = .next ((s.onMach (fun m => m.begun n)).onMach (fun _ =>
      ((s.m.begun n).setD n (((s.m.begun n).core n).d.result ((s.m.begun n).core n).cycle lat (wD w) (f ((s.m.begun n).core n).d w))).endSlot n 2)) :=
  State.run_slot_done h ho rfl rfl

/-- One that changes the core's data. -/
theorem State.run_scalarAct_ok {f : CoreData → Nat → Except Nat CoreData} {d : CoreData} (hf : f ((s.m.begun n).coreD n) w = .ok d) :
    State.run (decide (n < 192)) (act (scalarAct n op f)) s = .next ((s.onMach (fun m => m.begun n)).onMach (fun m => (m.setD n d).endSlot n 2)) :=
  State.run_slot_done (m' := (s.m.begun n).setD n d) h ho (by simp only [hf]) rfl

/-- And one that traps. -/
theorem State.run_scalarAct_trap {f : CoreData → Nat → Except Nat CoreData} {kind : Nat} (hf : f ((s.m.begun n).coreD n) w = .error kind) :
    State.run (decide (n < 192)) (act (scalarAct n op f)) s = .next ((s.onMach (fun m => m.begun n)).onMach (fun m => m.trapBundle n kind)) :=
  State.run_slot_trap h ho (by simp only [hf])

end

section
variable {m : Mach} {n w : Nat} {off : Nat}

/-- A constant at an aligned offset of the core's store is loaded, if it can be read. -/
theorem Mach.loadConst_reads (hoff : (((m.core n).d.s (wA w)).toInt + wImm w) % 2 ^ 64 = off) (hlow : off ≤ 0x1FFFF8) (halign : off % 8 = 0)
    (hread : m.readUe false (coreAddr n off) 8 = false) : m.loadConst n w =
      .done ((m.noteRead false (coreAddr n off) 8).setD n
        ((m.core n).d.result (m.core n).cycle 4 (wD w) (BitVec.ofNat 64 (m.readNat false (coreAddr n off) 8)))) := by
  have hgood : ¬ (0x1FFFF8 < (off : Int) ∨ (off : Int) % 8 ≠ 0) := by omega
  simp only [Mach.loadConst, hoff, Int.toNat_natCast, if_neg hgood, hread, Bool.false_eq_true, if_false]

theorem Mach.loadConst_ue (hoff : (((m.core n).d.s (wA w)).toInt + wImm w) % 2 ^ 64 = off) (hlow : off ≤ 0x1FFFF8) (halign : off % 8 = 0)
    (hread : m.readUe false (coreAddr n off) 8 = true) : m.loadConst n w = .trapUe (coreAddr n off) 8 := by
  have hgood : ¬ (0x1FFFF8 < (off : Int) ∨ (off : Int) % 8 ≠ 0) := by omega
  simp only [Mach.loadConst, hoff, Int.toNat_natCast, if_neg hgood, hread, if_true]

/-- The identity of a core that a KERNEL runs on. -/
theorem Mach.myId_running {k : Issued} (h : m.kernelOf n = some k) : m.myId n =
    (m.map n).logical + (m.groupLogical k.part (k.queue - 4)).findIdx (· == (m.map n).logical) * 2 ^ 8 + (m.groupLogical k.part (k.queue - 4)).length % 256 * 2 ^ 16 + n * 2 ^ 24 := by
  simp only [Mach.myId, h]

end

/-- Settles O25: each operation is a scalar row, but sc.ldc, sc.myid and sc.peer, which read more than the core's data. -/
theorem scalarResultsComeDue : Obligations.ScalarResultsComeDue := by
  intro s0 n w h s c a b gives
  refine ⟨fun ho => ?_, fun ho => ?_, fun ho => ?_, fun ho => ?_, fun ho => ?_, fun ho => ?_, fun ho => ?_, fun ho => ?_, fun ho => ?_, fun ho => ?_, fun ho => ?_,
    fun ho off hoff hlow halign => ⟨fun hread => ?ldc, fun hread => ?ldcUe⟩, fun ho => ?_, fun ho => ?_, fun ho k l hk hl => ?myid, fun ho k hk => ?peer, fun ho hk => ?noPeer⟩
  case ldc => exact State.run_slot_done h ho (Mach.loadConst_reads hoff hlow halign hread) rfl
  case ldcUe => exact State.run_slot_trapUe h ho (Mach.loadConst_ue hoff hlow halign hread)
  case myid =>
    subst hl
    rw [← Mach.myId_running hk]
    exact State.run_slot_done h ho rfl rfl
  case peer => exact State.run_slot_done h ho (congrArg (fun o : Option Nat => Act.done (s.m.setD n (c.d.result c.cycle 1 (wD w) (BitVec.ofNat 64 (o.getD 0xFF))))) hk) rfl
  case noPeer => exact State.run_slot_done h ho (congrArg (fun o : Option Nat => Act.done (s.m.setD n (c.d.result c.cycle 1 (wD w) (BitVec.ofNat 64 (o.getD 0xFF))))) hk) rfl
  all_goals exact State.run_scalarRow h ho _ _

end Sys2Proof.Machine
end

section
/-! PROOFS. The control operations of the scalar slot, and the sync slot: waits, barriers, switch points and ends (R115, R116, R120, R126 to R128, R138 to R145). -/
namespace Sys2Proof.Machine

/-! ## The control operations on a core's data (R116, R120, R126 to R128, R145) -/

section
variable {d : CoreData} {w : Nat}

theorem CoreData.loop_runs (hcount : (d.s (wA w)).toNat ≠ 0) (hroom : d.loops.length < 4) : d.loop w =
    .ok { d with nextPc := some ((d.pc + 1) % 4096), loops := ⟨(d.pc + 1) % 4096, wTarget w, (d.s (wA w)).toNat - 1⟩ :: d.loops } := by
  simp only [CoreData.loop, if_neg hcount, if_neg (Nat.not_le.mpr hroom)]

theorem CoreData.loop_tooDeep (hcount : (d.s (wA w)).toNat ≠ 0) (hfull : 4 ≤ d.loops.length) : d.loop w = .error fkLoopDepth := by
  simp only [CoreData.loop, if_neg hcount, if_pos hfull]

theorem CoreData.loop_skipped (hcount : (d.s (wA w)).toNat = 0) : d.loop w =
    .ok { d with nextPc := some (loopEnd (wTarget w) d.loops).1, loops := (loopEnd (wTarget w) d.loops).2 } := by
  simp only [CoreData.loop, if_pos hcount]

theorem CoreData.rewindQueue_held (hpos : 0 ≤ wImm w) (hheld : (wImm w).toNat ≤ (d.queue (wD w)).rew) :
    d.rewindQueue w = .ok (d.setQueue (wD w) ((d.queue (wD w)).rewind (wImm w).toNat)) :=
  if_neg (by omega)

theorem CoreData.rewindQueue_tooFar (hfar : (d.queue (wD w)).rew < (wImm w).toNat) : d.rewindQueue w = .error fkQRewind := if_pos (.inr hfar)

theorem CoreData.startFill_starts (hpos : 0 ≤ wImm w) (hgood : fillBad (d.s (wA w)).toNat (d.s (wB w)).toNat (wImm w).toNat = false) :
    d.startFill w = .ok { d with ifill := d.ifill ++ [⟨(d.s (wA w)).toNat, (d.s (wB w)).toNat, (wImm w).toNat⟩] } :=
  if_neg (by simpa [hgood] using hpos)

theorem CoreData.startFill_bad (hbad : wImm w < 0 ∨ fillBad (d.s (wA w)).toNat (d.s (wB w)).toNat (wImm w).toNat = true) :
    d.startFill w = .error fkQCfg := if_pos hbad

theorem CoreData.setFormat_ok (hpair : pairOk (d.s (wA w)).toNat = true) :
    d.setFormat w = .ok { d with mfNext := d.mfNext ++ [(bits w 24 23, (d.s (wA w)).toNat)] } := if_pos hpair

theorem CoreData.setFormat_bad (hpair : pairOk (d.s (wA w)).toNat = false) : d.setFormat w = .error fkMxFormat := by simp [CoreData.setFormat, hpair]

theorem CoreData.startAmo_free {cycle : Nat} (hfree : d.amo = none) : d.startAmo cycle w =
    .ok { d with amo := some ⟨cycle, wD w, (d.s (wA w)).toNat, bits w 25 23, bit w 26, (d.s (wB w)).toNat, (d.s (wD w)).toNat⟩ } := by
  simp [CoreData.startAmo, hfree]

theorem CoreData.startAmo_busy {cycle : Nat} {x : CoreAmo} (hbusy : d.amo = some x) : d.startAmo cycle w = .error fkAmoBusy := by
  simp [CoreData.startAmo, hbusy]

end

/-- Settles O26: each operation by what it makes of the core's data, or its trap. -/
theorem scalarControlActs : Obligations.ScalarControlActs := by
  intro s0 n w h s d a sets traps taken
  have hd : (s0.m.begun n).coreD n = d := rfl
  refine ⟨fun ho => ?br, fun ho => ?bz, fun ho => ?bnz, fun ho hcount hroom => ?loop, fun ho hcount hfull => ?loopDeep, fun ho hcount => ?loopNone,
    fun ho d' hq => ?qcfg, fun ho hq => ?qcfgBad, fun ho hpos hheld => ?qrew, fun ho hpos hfar => ?qrewFar, fun ho => ?setprog, fun ho hpos hgood => ?ifill,
    fun ho hbad => ?ifillBad, fun ho hpair => ?mxfmt, fun ho hpair => ?mxfmtBad, fun ho hfree => ?amo, fun ho x hbusy => ?amoBusy⟩
  case br => exact State.run_scalarAct_ok h ho rfl
  case bz => exact State.run_scalarAct_ok h ho rfl
  case bnz => exact State.run_scalarAct_ok h ho rfl
  case loop => exact State.run_scalarAct_ok h ho (CoreData.loop_runs hcount hroom)
  case loopDeep => exact State.run_scalarAct_trap h ho (CoreData.loop_tooDeep hcount hfull)
  case loopNone => exact State.run_scalarAct_ok h ho (CoreData.loop_skipped hcount)
  case qcfg => exact State.run_scalarAct_ok h ho (congrArg (fun o : Option CoreData => o.elim (Except.error fkQCfg) Except.ok) hq)
  case qcfgBad => exact State.run_scalarAct_trap h ho (congrArg (fun o : Option CoreData => o.elim (Except.error fkQCfg) Except.ok) hq)
  case qrew => exact State.run_scalarAct_ok h ho (CoreData.rewindQueue_held hpos hheld)
  case qrewFar => exact State.run_scalarAct_trap h ho (CoreData.rewindQueue_tooFar hfar)
  case setprog => exact State.run_scalarAct_ok h ho rfl
  case ifill => exact State.run_scalarAct_ok h ho (CoreData.startFill_starts hpos hgood)
  case ifillBad => exact State.run_scalarAct_trap h ho (CoreData.startFill_bad hbad)
  case mxfmt => exact State.run_scalarAct_ok h ho (CoreData.setFormat_ok hpair)
  case mxfmtBad => exact State.run_scalarAct_trap h ho (CoreData.setFormat_bad hpair)
  case amo =>
    exact State.run_slot_done (m' := s.m.setD n _) h ho (by simp only [hd, CoreData.startAmo_free hfree]; rfl) rfl
  case amoBusy => exact State.run_slot_trap h ho (by rw [hd, CoreData.startAmo_busy hbusy])

/-! ## Waits (R115, R138) -/

/-- A sync operation passes where its condition holds, and else costs a stalled cycle. -/
theorem State.run_syncRow {s : State} {n w op : Nat} (h : s.m.slotReady n 1 w = true) (ho : w % 256 = op) {cond : Core → Nat → Bool} {P : Prop} [Decidable P]
    {g : Mach → Mach} (hcond : cond ((s.m.begun n).core n) w = true ↔ P) (hg : (if P then (s.m.begun n).endSlot n 1 else (s.m.begun n).stallCycle n) = g (s.m.begun n)) :
    State.run (decide (n < 192)) (act (syncRow n op cond)) s = .next ((s.onMach (fun m => m.begun n)).onMach g) := by
  refine State.run_slot h ((Mach.slotRow_ready op _ h ho).trans ?_)
  rw [← hg]
  by_cases hP : P
  · simp only [hcond.mpr hP, if_true, if_pos hP]
  · simp only [if_neg (mt hcond.mp hP), if_neg hP]

/-- The first k entries of a queue are there and ready. -/
theorem CQueue.firstReady_iff (q : CQueue) (k : Nat) : q.firstReady k = true ↔ k ≤ q.occ ∧ ∀ i < k, q.readyAt (q.popped + i) = true := by
  simp [CQueue.firstReady]

/-- No unit of the core is at work. -/
theorem CoreData.unitsIdle_iff (d : CoreData) : d.unitsIdle = true ↔
    d.loads = [] ∧ d.stores = [] ∧ d.macRun = none ∧ d.macWait = none ∧ d.drainRun = none ∧ d.drainWait = none ∧ d.vtoks = [] ∧ d.ifill = [] := by
  simp [CoreData.unitsIdle, and_assoc]

/-- Settles O27: each sync operation is one condition on the core. -/
theorem syncOperationsWait : Obligations.SyncOperationsWait := by
  intro s0 n w h s c d goes idle
  refine ⟨fun ho => ?await, fun ho => ?_, fun ho => ?_, fun ho => ?_, fun ho => ?_, fun ho => ?_, fun ho => ?_, fun ho => ?_, fun ho => ?idle, fun ho => ?_⟩
  case await => exact State.run_syncRow h ho (CQueue.firstReady_iff _ _) rfl
  case idle => exact State.run_syncRow h ho (CoreData.unitsIdle_iff _) rfl
  · exact State.run_syncRow h ho decide_eq_true_iff rfl
  · exact State.run_syncRow h ho decide_eq_true_iff rfl
  · exact State.run_syncRow h ho decide_eq_true_iff rfl
  · exact State.run_syncRow h ho Option.isNone_iff_eq_none rfl
  · exact State.run_syncRow h ho Option.isNone_iff_eq_none rfl
  · exact State.run_syncRow h ho List.isEmpty_iff rfl
  · exact State.run_syncRow h ho decide_eq_true_iff rfl
  · exact State.run_syncRow h ho Option.isNone_iff_eq_none rfl

/-! ## Barriers, switch points and ends (R138, R140, R143, R144) -/

section
variable {m : Mach} {n w : Nat}

theorem Mach.barAct_holds (h : (m.core n).released = false) :
    m.barAct n w = .hold ((m.setCore n { m.core n with barrier := some (wX w % 16) }).stallCycle n) := by simp [Mach.barAct, h]

theorem Mach.barAct_released (h : (m.core n).released = true) :
    m.barAct n w = .done (m.setCore n { m.core n with barrier := none, released := false }) := by simp [Mach.barAct, h]

/-- A group whose cores all stand at one number is released. -/
theorem barrierRelease_meets {p g x : Nat} (hcores : (m.groupPhys p g).filterMap id ≠ [])
    (hmeet : ∀ k ∈ (m.groupPhys p g).filterMap id, (m.core k).barrier = some x ∧ (m.core k).released = false) :
    barrierRelease p g m = ((m.groupPhys p g).filterMap id).foldl (fun m k => m.setCore k { m.core k with released := true }) m := by
  obtain ⟨c, cs, hcs⟩ := List.exists_cons_of_ne_nil hcores
  rw [hcs] at hmeet
  have hfirst : (m.core c).barrier = some x := (hmeet c List.mem_cons_self).1
  have hall : (c :: cs).all (fun k => (m.core k).barrier == some x && !(m.core k).released) = true := by
    rw [List.all_eq_true]
    intro k hk
    simp [hmeet k hk]
  simp only [barrierRelease, hcs, hfirst, Option.isSome_some, hall, Bool.and_self, if_true]

theorem Mach.swptAct_passes (h : m.switchWanted (m.corePart n) = false) : m.swptAct n = .done (m.setCore n { m.core n with wdogFrom := (m.core n).cycle }) := by
  simp [Mach.swptAct, h]

theorem Mach.swptAct_idles (h : m.switchWanted (m.corePart n) = true) (hidle : ((m.core n).d.unitsIdle && (m.core n).d.amo.isNone) = true) :
    m.swptAct n = .hold (m.setCore n { m.core n with atSwitch := true }) := by simp only [Mach.swptAct, h, hidle, if_true]

theorem Mach.swptAct_waits (h : m.switchWanted (m.corePart n) = true) (hbusy : ((m.core n).d.unitsIdle && (m.core n).d.amo.isNone) = false) :
    m.swptAct n = .wait := by simp only [Mach.swptAct, h, hbusy, if_true, Bool.false_eq_true, if_false]

theorem Mach.endAct_waits (hbusy : ((m.core n).d.unitsIdle && (m.core n).d.amo.isNone) = false) : m.endAct n w = .wait := by
  simp only [Mach.endAct, hbusy, Bool.false_eq_true, if_false]

/-- The block once a core has ended its part. -/
def Mach.coreEnded (m : Mach) (n w : Nat) : Mach :=
  (m.setCore n { m.core n with run := false, ended := true, fetched := false, slot := 0, d := { (m.core n).d with prog := ((m.core n).d.s (wX w)).toNat % 2 ^ 48 } }).incMod
    .CORE_ISSUED_COUNT 1 n

/-- A core that ends its part ends the KERNEL where it is the last. -/
theorem Mach.endAct_ends {k : Issued} (hidle : ((m.core n).d.unitsIdle && (m.core n).d.amo.isNone) = true) (hkernel : (m.coreEnded n w).kernelOf n = some k) :
    m.endAct n w = .hold (if ((m.coreEnded n w).kernelCores k).all (fun x => ((m.coreEnded n w).core x).ended) then (m.coreEnded n w).kernelEnds k stOk else m.coreEnded n w) := by
  simp only [Mach.coreEnded] at hkernel
  simp only [Mach.endAct, hidle, if_true, hkernel, Mach.coreEnded]
  rfl

/-- A KERNEL that ends well. -/
theorem Mach.kernelEnds_ok (k : Issued) : m.kernelEnds k stOk =
    m.setIssued { k with result := some (if k.extra = [stUe] then stUe else if k.degraded then stDegraded else stOk), progress := m.groupProgress k } := by
  simp only [Mach.kernelEnds, if_true]

end

/-- Settles O28: the three operations by what they do of the core, and the release of a group. -/
theorem groupsMeetAndEnd : Obligations.GroupsMeetAndEnd := by
  intro s0 n w h s c idle ended
  refine ⟨fun ho hrel => ?held, fun ho hrel => ?released, fun p g cs x hp hg hcs hne hmeet => ?release, fun ho hsw => ?passes, fun ho hsw hidle => ?idles,
    fun ho hsw hbusy => ?waits, fun ho hbusy => ?endWaits, fun ho hidle k hk => ?ends⟩
  case held => exact State.run_slot_hold h ho (Mach.barAct_holds hrel) rfl
  case released => exact State.run_slot_done h ho (Mach.barAct_released hrel) rfl
  case release =>
    subst hcs
    exact State.run_act_eq (by simp [hp, hg]) (Mach.slotReady_awake h).1 (barrierRelease_meets hne hmeet)
  case passes => exact State.run_slot_done h ho (Mach.swptAct_passes hsw) rfl
  case idles => exact State.run_slot_hold h ho (Mach.swptAct_idles hsw hidle) rfl
  case waits => exact State.run_slot_wait h ho (Mach.swptAct_waits hsw hbusy)
  case endWaits => exact State.run_slot_wait h ho (Mach.endAct_waits hbusy)
  case ends =>
    refine State.run_slot_hold h ho (Mach.endAct_ends hidle hk) ?_
    rw [Mach.kernelEnds_ok]
    rfl

end Sys2Proof.Machine
end

section
/-! PROOFS. The vector unit of a core (R118, R133, R164 to R170). -/
namespace Sys2Proof.Machine

/-! ## Vector operations -/

/-- The operands that a vector operation names. -/
def vecNames (w : Nat) : List Nat := ([bits w 13 8, bits w 19 14, bits w 25 20]).take (vecArity (w % 256))

/-- The block with the reads of a vector operation's operands noted. -/
def Mach.vecNoted (m : Mach) (n w : Nat) (es : List Bytes) : Mach :=
  (vecNames w).foldl (fun m' o => m'.noteRead false (coreAddr n (((m.core n).d.queue (o % 32)).offset ((m.core n).d.queue (o % 32)).popped)) (nthD es 0 []).length) m

/-- The core's data with a vector operation's entry pushed and its token due. -/
def CoreData.vecPushed (d : CoreData) (ps : List (Nat × Nat)) (dst k : Nat) (kept : Bytes) (due : Nat) : CoreData :=
  { d with rel := d.rel ++ ps, vtoks := d.vtoks ++ [⟨dst, k, kept, due⟩] }

/-- The bytes of an operation's result for an entry of a queue. -/
def Mach.vecGives (m : Mach) (n w : Nat) (es : List Bytes) (d1 : CoreData) : Bytes :=
  vecResult (w % 256) (bits w 32 31) (bits w 42 38) ((m.core n).d.s (bits w 37 33)).toNat
    (min ((d1.queue (bits w 30 26)).bytes / laneBytes (bits w 32 31)) (laneMax (bits w 32 31))) es

section
variable {m : Mach} {n w : Nat} {es : List Bytes} {ps : List (Nat × Nat)} {d1 d2 : CoreData} {k : Nat}

theorem sizes_agree (h : ∀ e ∈ es, e.length = (nthD es 0 []).length) : es.any (fun e => e.length != (nthD es 0 []).length) = false := by
  simpa using h

/-- An operation with its operands and a free slot for its result pushes it. -/
theorem Mach.vecAct_pushes (hop : w % 256 ≠ 0x18) (hops : vecOperands m n (vecNames w) (m.core n).d = .ok (es, ps, d1))
    (hsizes : ∀ e ∈ es, e.length = (nthD es 0 []).length) (hgive : d1.give (bits w 30 26) (m.vecGives n w es d1).length = .ok (k, d2)) : m.vecAct n w =
      .done ((m.vecNoted n w es).setD n (d2.vecPushed ps (bits w 30 26) k
        (if w % 256 = 0x20 then slice (m.vecGives n w es d1) 0 (d1.queue (bits w 30 26)).bytes else m.vecGives n w es d1) ((m.core n).cycle + vecLatency (w % 256)))) := by
  simp only [vecNames] at hops
  simp only [Mach.vecGives] at hgive
  simp only [Mach.vecAct, hops, sizes_agree hsizes, Bool.false_eq_true, if_false, if_neg hop, hgive]
  rfl

/-- A gather reads the lanes that its indices name. -/
theorem Mach.vecAct_gathers {l : List Nat} (hop : w % 256 = 0x18) (hops : vecOperands m n (vecNames w) (m.core n).d = .ok (es, ps, d1))
    (hsizes : ∀ e ∈ es, e.length = (nthD es 0 []).length)
    (hlanes : m.gatherLanes n (bits w 32 31) ((m.core n).d.s (bits w 37 33)).toNat (lanesOf 2 (nthD es 0 [])) = .ok l)
    (hgive : d1.give (bits w 30 26) (packLanes (bits w 32 31) l).length = .ok (k, d2)) : m.vecAct n w =
      .done (((lanesOf 2 (nthD es 0 [])).foldl (fun m' x => m'.noteRead false
          (coreAddr n (gatherOff (bits w 32 31) ((m.core n).d.s (bits w 37 33)).toNat x).toNat) (laneBytes (bits w 32 31))) (m.vecNoted n w es)).setD n
        (d2.vecPushed ps (bits w 30 26) k (packLanes (bits w 32 31) l) ((m.core n).cycle + 24))) := by
  have hcvt : w % 256 ≠ 0x20 := by omega
  have hlat : vecLatency (w % 256) = 24 := by rw [hop]; rfl
  simp only [vecNames] at hops
  simp only [Mach.vecAct, hops, sizes_agree hsizes, Bool.false_eq_true, if_false, if_pos hop, hlanes, hgive, if_neg hcvt, hlat]
  rfl

end

/-- The row of a vector operation: its result, what the entry keeps of it, and its latency. -/
theorem State.run_vecRow {s : State} {n w op : Nat} {es : List Bytes} {ps : List (Nat × Nat)} {d1 d2 : CoreData} {k lat : Nat} {res kept : Bytes}
    (h : s.m.slotReady n 3 w = true) (ho : w % 256 = op) (hop : op ≠ 0x18)
    (hops : vecOperands (s.m.begun n) n (vecNames w) ((s.m.begun n).core n).d = .ok (es, ps, d1)) (hsizes : ∀ e ∈ es, e.length = (nthD es 0 []).length)
    (hres : (s.m.begun n).vecGives n w es d1 = res) (hkept : (if op = 0x20 then slice res 0 (d1.queue (bits w 30 26)).bytes else res) = kept) (hlat : vecLatency op = lat)
    (hgive : d1.give (bits w 30 26) res.length = .ok (k, d2)) :
    State.run (decide (n < 192)) (act (vecRow n op)) s = .next ((s.onMach (fun m => m.begun n)).onMach (fun _ =>
      (((s.m.begun n).vecNoted n w es).setD n (d2.vecPushed ps (bits w 30 26) k kept (((s.m.begun n).core n).cycle + lat))).endSlot n 3)) := by
  subst hres hkept hlat ho
  exact State.run_slot_done h rfl (Mach.vecAct_pushes hop hops hsizes hgive) rfl

/-- Settles O29: every operation but the gather is a row of `State.run_vecRow`; its result is the arm of `vecResult` for its opcode. -/
theorem vectorOperationsPushTheirLanes : Obligations.VectorOperationsPushTheirLanes := by
  intro s0 n w es ps d1 h s c os dst ty sreg lanes x sv free hops hsizes noted gives each gives'
  have hop (i : Nat) (ho : w % 256 = i) : s.m.vecGives n w es d1 = vecResult i ty (bits w 42 38) sreg free es := by rw [← ho]; rfl
  refine ⟨fun ho k d2 hg => ?_, fun ho k d2 hg => ?_, fun ho k d2 hg => ?_, fun ho k d2 hg => ?_, fun ho k d2 hg => ?_, fun ho k d2 hg => ?_, fun ho k d2 hg => ?_,
    fun ho k d2 hg => ?_, fun ho k d2 hg => ?_, fun ho k d2 hg => ?_, fun ho k d2 hg => ?_, fun ho l k d2 hl hg => ?gather, fun ho k d2 hg => ?_, fun ho k d2 hg => ?_,
    fun ho k d2 hg => ?_, fun ho k d2 hg => ?_, fun ho k d2 hg => ?_⟩
  case gather => exact State.run_slot_done h ho (Mach.vecAct_gathers ho hops hsizes hl hg) rfl
  all_goals exact State.run_vecRow h ho (by decide) hops hsizes (hop _ ho) rfl rfl hg

end Sys2Proof.Machine
end

section
/-! PROOFS. The matrix unit of a core (R130 to R132, R159 to R163). -/
namespace Sys2Proof.Machine

section
variable {m : Mach} {n w : Nat} {d d1 d2 : CoreData}

/-! ## mx.mma -/

theorem Mach.mmaAct_busy (h : (m.coreD n).macWait.isSome = true) : m.mmaAct n w = .trap fkMxBusy := by simp only [Mach.mmaAct, h, if_true]

/-- The panel product of an mx.mma, with the panels it took. -/
def mmaOf (w pair : Nat) (d d1 d2 : CoreData) (ia ib : Nat) (ba bb : Bytes) : Mma :=
  ⟨bits w 13 8 % 32, ia, (d.queue (bits w 13 8 % 32)).pops, !bit (bits w 13 8) 5, bits w 19 14 % 32, ib, (d1.queue (bits w 19 14 % 32)).pops, !bit (bits w 19 14) 5,
    b2n (bit w 20), bit w 21, pair, ba, bb, d2.drainsOn (b2n (bit w 20))⟩

/-- An mx.mma with both its panels waits in the MAC buffer, or runs. -/
theorem Mach.mmaAct_claims {pair ia ib : Nat} {ba bb : Bytes} (hpair : nget (fun _ => 0) (m.coreD n).mf (bits w 23 22) = pair) (hfree : (m.coreD n).macWait = none)
    (hok : pairOk pair = true) (ha : (m.coreD n).take (bits w 13 8) (panelLen (pairA pair) 8192) = .ok (ia, d1))
    (hba : m.entry n (bits w 13 8 % 32) ia (panelLen (pairA pair) 8192) = .ok ba) (hb : d1.take (bits w 19 14) (panelLen (pairB pair) 16384) = .ok (ib, d2))
    (hbb : m.entry n (bits w 19 14 % 32) ib (panelLen (pairB pair) 16384) = .ok bb) : m.mmaAct n w = .done
      (((m.noteRead false (coreAddr n (((m.coreD n).queue (bits w 13 8 % 32)).offset ia)) (panelLen (pairA pair) 8192)).noteRead false
        (coreAddr n (((m.coreD n).queue (bits w 19 14 % 32)).offset ib)) (panelLen (pairB pair) 16384)).setD n
        { d2 with macWait := some (mmaOf w pair (m.coreD n) d1 d2 ia ib ba bb) }.startUnits) := by
  simp only [Mach.mmaAct, hpair, hfree, Option.isSome_none, hok, Bool.not_true, Bool.false_eq_true, if_false, ha, hba, hb, hbb]
  rfl

/-! ## The end of a panel product -/

theorem mmaComplete_running {x : Mma} (h : (m.coreD n).macRun = some x) : mmaComplete n m = (m.onUnits n (CoreData.mmaEnd x)).pump n := by
  simp only [mmaComplete, h]

/-- Where no panel is released and no drain waits, the bank and its checksum lanes alone change. -/
theorem CoreData.mmaEnd_bank {x : Mma} (ha : x.relA = false) (hb : x.relB = false) (hrun : d.drainRun = none) (hwait : d.drainWait = none) :
    d.mmaEnd x = ({ d with
      acc := nset (fun _ => []) d.acc x.bank (panelProduct x.pair x.a x.b (if x.clear then [] else d.bankAcc x.bank) (if x.clear then Abft.clear else d.bankAbft x.bank)).1
      abft := nset (fun _ => Abft.clear) d.abft x.bank (panelProduct x.pair x.a x.b (if x.clear then [] else d.bankAcc x.bank) (if x.clear then Abft.clear else d.bankAbft x.bank)).2
      macRun := none } : CoreData).startUnits := by
  simp only [CoreData.mmaEnd, ha, hb, Bool.false_eq_true, if_false, hrun, hwait, Option.map_none]

/-! ## mx.drain -/

theorem CoreData.issueDrain_waits (hfree : d.drainWait = none) (hconf : (d.queue (bits w 28 24)).configured = true) (hclaim : d.tailClaim (bits w 28 24) ≠ 1)
    (hsize : drainRowLen (bits w 31 29) ≤ (d.queue (bits w 28 24)).bytes) : d.issueDrain w =
      .ok { d with drainWait := some ⟨b2n (bit w 20), bits w 28 24, bits w 31 29, BitVec.ofNat 32 (d.s (bits w 12 8)).toNat, 0, false, d.mmasOn (b2n (bit w 20))⟩ }.startUnits := by
  simp only [CoreData.issueDrain, hfree, Option.isSome_none, hconf, Bool.not_true, Bool.false_eq_true, if_false, if_neg hclaim, if_neg (Nat.not_lt.mpr hsize)]

/-- A drain whose bank's products have ended starts, or traps where the checksums disagree. -/
theorem drainStart_starts {x : Drain} {v : Verdict} (h : (m.coreD n).drainRun = some x) (hnew : x.started = false) (hdone : x.afterMmas = 0) : drainStart n v m =
    if m.flag .CORE_CTL_ABFT n = true ∧ (v = .fail ∨ abftFails ((m.coreD n).bankAcc x.bank) ((m.coreD n).bankAbft x.bank) = true) then m.trapCore n fkAbft
    else m.onUnits n (fun d => { d with drainRun := some { x with started := true } }) := by
  simp [drainStart, h, hnew, hdone]

/-- A started drain pushes its next row where its queue has room. -/
theorem drainRowPush_pushes {x : Drain} (h : (m.coreD n).drainRun = some x) (hstarted : x.started = true) (hroom : ((m.coreD n).queue x.dst).free ≠ 0) : drainRowPush n m =
    ((m.coreWrite n (((m.coreD n).queue x.dst).offset ((m.coreD n).queue x.dst).pushed) (drainRow x.ofmt x.scale ((m.coreD n).bankAcc x.bank) x.row)).onUnits n
      (CoreData.rowPushed x)).pump n := by
  simp [drainRowPush, h, hstarted, hroom]

theorem CoreData.rowPushed_next {x : Drain} (h : x.row < 127) :
    d.rowPushed x = { d.setQueue x.dst ((d.queue x.dst).push true) with drainRun := some { x with row := x.row + 1 } } := if_neg (by omega)

end

/-- Settles O30: each step of the two units, as far as its hypotheses let it go. -/
theorem matrixUnitsCompute : Obligations.MatrixUnitsCompute := by
  intro s0 n w ha hn s d0 d pair oa ob bank dst
  have hn' : decide (n < 192) = true := by simp [hn]
  refine ⟨fun h ho hfree hok ia d1 ba ib d2 bb hta hea htb heb => ?claims, fun h ho hbusy => ?busy, fun x hx => ?ends, fun x hra hrb hdr hdw => CoreData.mmaEnd_bank hra hrb hdr hdw,
    fun h ho hfree hconf hclaim hsize => ?drain, fun x v hx hnew hdone => ?starts, fun x hx hst hroom => ?row, fun x hx => CoreData.rowPushed_next hx⟩
  case claims => exact State.run_slot_done h ho (Mach.mmaAct_claims rfl hfree hok hta hea htb heb) rfl
  case busy => exact State.run_slot_trap h ho (Mach.mmaAct_busy hbusy)
  case ends => exact State.run_act_eq hn' ha (mmaComplete_running hx)
  case drain =>
    have hissue : ((s0.m.begun n).coreD n).issueDrain w = _ := CoreData.issueDrain_waits hfree hconf hclaim hsize
    exact State.run_slot_done (m' := s.m.setD n _) h ho (by rw [hissue]; rfl) rfl
  case starts => exact State.run_act_eq hn' ha (drainStart_starts hx hnew hdone)
  case row => exact State.run_act_eq hn' ha (drainRowPush_pushes hx hst hroom)

end Sys2Proof.Machine
end

section
/-! PROOFS. What arrives at a core from its own units and from outside (R125, R127, R137, R141, R143, R145, R149). -/
namespace Sys2Proof.Machine

section
variable {m : Mach} {n : Nat}

/-! ## Results and replies (R125, R127, R137) -/

theorem scalarResult_alone {x : ScalarPend} (h : (m.coreD n).pend = [x]) : scalarResult n m = (m.toCycle n x.due).pump n := by
  simp only [scalarResult, h, List.foldl_cons, List.foldl_nil, Nat.min_self]

theorem vectorToken_alone {x : VTok} (h : (m.coreD n).vtoks = [x]) : vectorToken n m = (m.toCycle n x.due).pump n := by
  simp only [vectorToken, h, List.foldl_cons, List.foldl_nil, Nat.min_self]

theorem amoComplete_refused {x : CoreAmo} (hx : (m.core n).d.amo = some x) (hbad : 2 ^ 48 ≤ x.addr ∨ m.amoTarget x.addr x.wide = false) :
    amoComplete n m = if (m.core n).run then (m.onUnits n (fun d => { d with amo := none })).trapCore n fkAmoRefused else m.onUnits n (fun d => { d with amo := none }) := by
  have hcond : (decide (2 ^ 48 ≤ x.addr) || !m.amoTarget x.addr x.wide) = true := by simpa using hbad
  simp only [amoComplete, hx, hcond, if_true]

/-- The block once the mirrors of the bytes that an atomic reads have served them. -/
def Mach.amoMirrored (m : Mach) (n : Nat) (x : CoreAmo) : Mach := (m.mirrorAll false (m.corePart n) (m.kernelId n) x.addr (if x.wide then 8 else 4)).2

theorem amoComplete_answered {x : CoreAmo} (hx : (m.core n).d.amo = some x) (hlow : x.addr < 2 ^ 48) (htarget : m.amoTarget x.addr x.wide = true)
    (hread : (m.amoMirrored n x).readUe false x.addr (if x.wide then 8 else 4) = false) :
    amoComplete n m = (((m.amoMirrored n x).amoDo (m.corePart n) x.addr x.op x.wide x.operand x.compare).2.coreTouch n [x.addr]).onUnits n
      (CoreData.amoResult (m.core n).cycle x ((m.amoMirrored n x).amoDo (m.corePart n) x.addr x.op x.wide x.operand x.compare).1) := by
  have hcond : (decide (2 ^ 48 ≤ x.addr) || !m.amoTarget x.addr x.wide) = false := by rw [htarget, decide_eq_false (Nat.not_le.mpr hlow)]; rfl
  simp only [Mach.amoMirrored] at hread ⊢
  simp only [amoComplete, hx, hcond, hread]
  rfl

/-- Nothing that landed since its issue hides the answer of an atomic. -/
theorem CoreData.amoResult_lands {d : CoreData} {cycle v : Nat} {x : CoreAmo} (h : d.landed = []) :
    d.amoResult cycle x v = { d with amo := none, sregs := nset (fun _ => 0) d.sregs x.dst (BitVec.ofNat 64 v) } := by
  simp [CoreData.amoResult, h]

/-! ## Fills (R145) -/

theorem ifillDone_first {f : IFill} {rest : List IFill} (h : (m.coreD n).ifill = f :: rest) :
    ifillDone n m = ((m.fillBundles n f).onUnits n (fun d => { d with ifill := rest })).wr .CORE_IFILLST_DONE 1 n := by
  simp only [ifillDone, h]

section
variable {src dst count : Nat}

/-- The block with the operands of a fill written. -/
def Mach.fillOperands (m : Mach) (n src dst count : Nat) : Mach := ((m.wr .CORE_IFILL_SRC src n).wr .CORE_IFILL_DST dst n).wr .CORE_IFILL_COUNT count n

@[simp] theorem Mach.core_fillOperands : (m.fillOperands n src dst count).core n = m.core n := rfl

theorem ifillGo_running (h : (m.core n).run = true) : ifillGo n src dst count m = ((m.fillOperands n src dst count).wr .CORE_IFILLST_REFUSED 1 n).badAcc := if_pos h

theorem ifillGo_starts (h : (m.core n).run = false)
    (hgood : fillBad ((m.fillOperands n src dst count).rd .CORE_IFILL_SRC n) ((m.fillOperands n src dst count).rd .CORE_IFILL_DST n)
      ((m.fillOperands n src dst count).rd .CORE_IFILL_COUNT n) = false) :
    ifillGo n src dst count m = (m.fillOperands n src dst count).setD n { (m.core n).d with
      ifill := (m.core n).d.ifill ++ [⟨(m.fillOperands n src dst count).rd .CORE_IFILL_SRC n, (m.fillOperands n src dst count).rd .CORE_IFILL_DST n,
        (m.fillOperands n src dst count).rd .CORE_IFILL_COUNT n⟩] } :=
  (if_neg (by simp [h])).trans (if_neg (Bool.eq_false_iff.mp hgood))

end

/-! ## Stops (R141, R143) -/

theorem groupStop_alone {p g st cyc lg : Nat} {k : Issued} (hg : m.groupStops = [⟨k.id, st, cyc, lg⟩]) (hk : m.issuedOf k.id = some k) (hp : k.part = p) (hq : k.queue = 4 + g) :
    groupStop p g m = (((m.kernelCores k).foldl Mach.stopCore { m with groupStops := [] }).kernelEnds
      ((((m.kernelCores k).foldl Mach.stopCore { m with groupStops := [] }).issuedOf k.id).getD k) st) := by
  simp [groupStop, hg, hk, hp, hq]

theorem watchdogExpiry_expires (hrun : (m.core n).run = true) (hswitch : (m.core n).atSwitch = false) (hlimit : m.rd .CORE_WDOG_LIMIT n ≠ 0) :
    watchdogExpiry n m = (m.toCycle n ((m.core n).wdogFrom + m.rd .CORE_WDOG_LIMIT n * 65536)).trapCore n fkWdog :=
  if_pos (by simp [hrun, hswitch, hlimit])

/-! ## Retirement (R149) -/

theorem coreRetire_grouped (hlive : (m.map n).st = 0) (hgroup : (m.groupOf n).isSome = true) : coreRetire n m = m.setMap n ⟨3, (m.map n).logical⟩ := by
  have hheld : (m.groupOf n).isNone = false := by simpa using hgroup
  simp [coreRetire, hlive, hheld]

theorem coreRetire_free (hlive : (m.map n).st = 0) (hgroup : m.groupOf n = none) : coreRetire n m = (m.setMap n ⟨3, (m.map n).logical⟩).retireNow n := by
  simp [coreRetire, hlive, hgroup]

end

/-- Settles O32: each event by what it makes of its core. -/
theorem coreEventsAct : Obligations.CoreEventsAct := by
  intro s n ha hn c d
  have hok : decide (n < 192) = true := by simp [hn]
  refine ⟨fun x hx => ?scalar, fun x hx => ?vector, fun k => rfl, fun x hx hbad => ?amoRefused, fun x p k hx hlow htarget hp hk => ?amoAnswered, fun f rest hf => ?fillEnds,
    fun p g k st cyc lg hp hg hstops hk hpart hqueue => ?stops, fun hrun hswitch hlimit => ?watchdog, fun who src dst count hserves hshown hrun => ?fillRunning,
    fun who src dst count hserves hshown hrun => ?fillStarts, fun who src dst count hserves hhidden => ?fillHidden, fun who hserves hlive hgroup => ?retireGrouped,
    fun who hserves hlive hgroup => ?retireFree⟩
  case scalar => exact State.run_act_eq hok ha (scalarResult_alone hx)
  case vector => exact State.run_act_eq hok ha (vectorToken_alone hx)
  case amoRefused => exact State.run_act_eq hok ha (amoComplete_refused hx hbad)
  case amoAnswered =>
    intro m hread r
    subst hp
    have hid : s.m.kernelId n = some k.id := by simp [Mach.kernelId, hk]
    have hm : m = s.m.amoMirrored n x := by simp only [Mach.amoMirrored, hid, m]
    refine ⟨State.run_act_eq hok ha ?_, CoreData.amoResult_lands⟩
    simp only [r, hm]
    exact amoComplete_answered hx hlow htarget (hm ▸ hread)
  case fillEnds => exact State.run_act_eq hok ha (ifillDone_first hf)
  case stops => exact State.run_act_eq (by simp [hp, hg]) ha (groupStop_alone hstops hk hpart hqueue)
  case watchdog => exact State.run_act_eq hok ha (watchdogExpiry_expires hrun hswitch hlimit)
  case fillRunning => exact State.run_served hok hserves ((if_neg (by simp [hshown])).trans (ifillGo_running hrun))
  case fillStarts =>
    intro m hgood
    exact State.run_served hok hserves ((if_neg (by simp [hshown])).trans (ifillGo_starts hrun hgood))
  case fillHidden => exact State.run_served hok hserves (if_pos hhidden)
  case retireGrouped => exact State.run_served hok hserves (coreRetire_grouped hlive hgroup)
  case retireFree => exact State.run_served hok hserves (coreRetire_free hlive hgroup)

end Sys2Proof.Machine
end

section
/-! PROOFS. Descriptors, allocation entries and the enables of partitions (R18, R173 to R177, R257, R258, R370). -/
namespace Sys2Proof.Machine

section
variable {m : Mach} {p : Nat}

/-! ## Descriptors (R176, R177) -/

theorem descCreate_idle (h : m.flag .SEC_DRES_BUSY p = false) :
    descCreate p m = { m.wr .SEC_DRES_BUSY 1 p with creating := nset (fun _ => []) m.creating p (m.staged p) } := if_neg (by simp [h])

theorem descCreate_busy (h : m.flag .SEC_DRES_BUSY p = true) : descCreate p m = m.badAcc := if_pos h

/-- A CREATE while a validation runs is counted, before firmware as after it. -/
theorem served_descCreate_busy (h : m.flag .SEC_DRES_BUSY p = true) : served (descCreate p) m = m.badAcc := by
  cases hf : m.firmware with
  | false => exact served_noFirmware _ hf
  | true => rw [served_firmware _ hf, descCreate_busy h]

theorem descDestroy_valid {t : Nat} {w : List Nat} (h : (m.wr .SEC_DCTL_TARGET t p).resolveHandle p t = some w) :
    descDestroy p t m = ((m.wr .SEC_DCTL_TARGET t p).drainDesc p (bits t 11 0)).wr .SEC_DRES_STATUS stOk p := by
  simp only [descDestroy, h]

theorem descDestroy_invalid {t : Nat} (h : (m.wr .SEC_DCTL_TARGET t p).resolveHandle p t = none) :
    descDestroy p t m = (m.wr .SEC_DCTL_TARGET t p).wr .SEC_DRES_STATUS stDescHandle p := by
  simp only [descDestroy, h]

/-- The block as a validation ends: its status shown, its staged words gone. -/
def Mach.validationShown (m : Mach) (p : Nat) : Mach :=
  { (m.wr .SEC_DRES_BUSY 0 p).wr .SEC_DRES_STATUS (m.validate p (nget (fun _ => []) m.creating p)) p with creating := nset (fun _ => []) m.creating p [] }

theorem descValidated_refused (hbusy : m.flag .SEC_DRES_BUSY p = true) (hbad : m.validate p (nget (fun _ => []) m.creating p) ≠ stOk) :
    descValidated p m = (m.validationShown p).wr .SEC_DRES_HANDLE 0 p := by
  have hbad' : (m.validate p (nget (fun _ => []) m.creating p) != stOk) = true := by simpa using hbad
  simp only [descValidated, hbusy, Bool.not_true, Bool.false_eq_true, if_false, hbad', if_true, Mach.validationShown]

theorem descValidated_created {i : Nat} (hbusy : m.flag .SEC_DRES_BUSY p = true) (hgood : m.validate p (nget (fun _ => []) m.creating p) = stOk)
    (hfree : (List.range 4096).find? (fun i => ((m.validationShown p).desc p i).st == 0) = some i) :
    descValidated p m =
      let w := nget (fun _ => []) m.creating p
      let d := (m.validationShown p).desc p i
      let r := ((m.validationShown p).setDesc p i ⟨1, d.gen, w, []⟩).refUp p (bits (nthD w 0 0) 7 0)
      (r.wr .SEC_DSTAT_LIVE (r.rd .SEC_DSTAT_LIVE p + 1) p).wr .SEC_DRES_HANDLE (handleOf p i d.gen) p := by
  have hgood' : (m.validate p (nget (fun _ => []) m.creating p) != stOk) = false := by simp [hgood]
  simp only [Mach.validationShown] at hfree
  simp only [descValidated, hbusy, Bool.not_true, Bool.false_eq_true, if_false, hgood', hfree, Mach.validationShown]

theorem Mach.drained_iff {i : Nat} : m.drained p i = true ↔ (m.desc p i).st = 2 ∧ ∀ c ∈ (m.desc p i).waitFor, m.issuedOf c = none := by
  simp [Mach.drained]

theorem descDrainDone_drained {i : Nat} (h : m.drained p i = true) : descDrainDone p i m =
    let r := (m.setDesc p i ⟨0, if (m.desc p i).gen = 65535 then 1 else (m.desc p i).gen + 1, [], []⟩).refDown p (bits (nthD (m.desc p i).words 0 0) 7 0)
    r.wr .SEC_DSTAT_DRAINING (r.rd .SEC_DSTAT_DRAINING p - 1) p := if_pos h

end

/-- Settles O34: each operation by its branches. -/
theorem descriptorsLiveAndDrain : Obligations.DescriptorsLiveAndDrain := by
  intro s who p k hp hk
  have hok : decide (p < 16) = true := by simp [hp]
  refine ⟨fun hserves => ⟨fun hf => ?absent, fun hf hidle => ?create, fun hbusy => ?createBusy, fun h w hw => ?destroy, fun h hw => ?destroyBad⟩, fun ha hbusy => ?ends,
    fun ha hst hdone => ?drained⟩
  case absent => exact State.run_served hok hserves (served_noFirmware _ hf)
  case create => exact State.run_served hok hserves ((served_firmware _ hf).trans (descCreate_idle hidle))
  case createBusy => exact State.run_served hok hserves (served_descCreate_busy hbusy)
  case destroy => exact State.run_served hok hserves (descDestroy_valid hw)
  case destroyBad => exact State.run_served hok hserves (descDestroy_invalid hw)
  case ends =>
    intro w m
    refine ⟨fun hbad => ?_, fun i hgood hfree => ?_⟩
    · exact State.run_act_eq hok ha (descValidated_refused hbusy hbad)
    · exact State.run_act_eq hok ha (descValidated_created hbusy hgood hfree)
  case drained => exact State.run_act_eq (by simp [hp, hk]) ha (descDrainDone_drained (Mach.drained_iff.mpr ⟨hst, hdone⟩))

/-! ## Allocation entries (R173, R370) -/

section
variable {m : Mach} {p a v : Nat} {len : Bool}

theorem Mach.withPended_none (h : ∀ e ∈ m.allocPend, e.1 = p → e.2.1 ≠ a) : m.withPended p a = m := by
  have hnone : m.allocPend.filter (fun e => e.1 == p && e.2.1 == a) = [] := by simpa [List.filter_eq_nil_iff] using h
  simp only [Mach.withPended, hnone, List.foldl_nil]

section
variable (hpend : m.withPended p a = m) (hrefs : m.rd .SEC_ALLOC_REFS p a = 0) (hok : (m.putAlloc p a len v).allocOk p a = true)
include hpend

theorem allocWrite_refused (h : m.rd .SEC_ALLOC_REFS p a ≠ 0 ∨ (m.putAlloc p a len v).allocOk p a = false) : allocWrite p a len v m = m.badAcc := by
  rw [allocWrite, hpend]
  exact if_pos (h.imp_right (fun h => by simp [h]))

include hrefs hok

theorem allocWrite_unsealed (hopen : m.isSealed p = false) : allocWrite p a len v m = m.putAlloc p a len v := by
  simp [allocWrite, Mach.tryAlloc, hpend, hrefs, hok, hopen]

/-- The block with the forgets of a sealed entry's bytes begun. -/
def Mach.allocForgets (m : Mach) (p a : Nat) (len : Bool) (v : Nat) : Mach :=
  (m.startForgets (m.rd .SEC_ALLOC_BASE p a) (m.rd .SEC_ALLOC_LEN p a) (.alloc p a)).startForgets ((m.putAlloc p a len v).rd .SEC_ALLOC_BASE p a)
    ((m.putAlloc p a len v).rd .SEC_ALLOC_LEN p a) (.alloc p a)

theorem allocWrite_sealed (hsealed : m.isSealed p = true) (hwait : (m.allocForgets p a len v).forgets.any (fun f => f.owner == .alloc p a) = true) :
    allocWrite p a len v m = { m.allocForgets p a len v with allocPend := (m.allocForgets p a len v).allocPend ++ [(p, a, len, v)] } := by
  have hfree : ¬(m.rd .SEC_ALLOC_REFS p a ≠ 0 ∨ (!(m.putAlloc p a len v).allocOk p a) = true) := by simp [hrefs, hok]
  simp only [Mach.allocForgets] at hwait
  simp only [allocWrite, hpend, if_neg hfree, hsealed, Bool.not_true, Bool.false_eq_true, if_false, hwait, if_true, Mach.allocForgets]

end

theorem allocService_open (h : p = 0 ∨ m.firmware = true) : allocService p a len v m = allocWrite p a len v m := if_pos h

theorem allocService_absent (hp : p ≠ 0) (hf : m.firmware = false) : allocService p a len v m = m.badAcc := if_neg (by simp [hp, hf])

/-! ## Enables (R257, R258) -/

theorem partitionWrite_open (h : p = 0 ∨ m.firmware = true) : partitionWrite p v m = partitionEnable p v m := if_pos h

theorem partitionEnable_enabled (h : m.enabled p = true) : partitionEnable p 1 m = m := (if_pos rfl).trans (if_pos h)

theorem partitionEnable_enables (hoff : m.enabled p = false) (hgroups : m.groupsBad p = false)
    (hranges : ∀ q < 16, q ≠ p → m.enabled q = true → m.rangesOverlap p q = false) : partitionEnable p 1 m =
    let free := !(List.range 16).any (fun q => q != p && m.resident q && m.conflict p q)
    let m := (m.wr .SEC_PART_CTL_ENABLE 1 p).wr .SEC_PART_CTL_RESIDENT (b2n free) p
    { m.setMon p { m.mon p with hadStep := false } with saved := m.saved.filter (fun x => x.part != p) } := by
  have hfree : (m.groupsBad p || (List.range 16).any (fun q => q != p && m.enabled q && m.rangesOverlap p q)) = false := by
    simpa [hgroups] using hranges
  exact (if_pos rfl).trans ((if_neg (by simp [hoff])).trans (if_neg (by rw [hfree]; exact Bool.false_ne_true)))

theorem partitionEnable_disables (hon : m.enabled p = true) (hqueues : ∀ q < 20, m.flag .SEQR_QCTL_ENABLE p q = false) (hissued : ∀ c ∈ m.sq.issued, c.part ≠ p) :
    partitionEnable p 0 m = (m.wr .SEC_PART_CTL_ENABLE 0 p).wr .SEC_PART_CTL_RESIDENT 0 p := by
  have hquiet : ((List.range 20).any (fun q => m.flag .SEQR_QCTL_ENABLE p q) || m.sq.issued.any (fun c => c.part == p)) = false := by
    simpa using ⟨hqueues, hissued⟩
  exact (if_neg (by decide)).trans ((if_neg (by simp [hon])).trans (if_neg (by rw [hquiet]; exact Bool.false_ne_true)))

theorem partitionEnable_queued {q : Nat} (hq : q < 20) (hon : m.enabled p = true) (hqueue : m.flag .SEQR_QCTL_ENABLE p q = true) : partitionEnable p 0 m = m.badAcc := by
  have hbusy : ((List.range 20).any (fun q => m.flag .SEQR_QCTL_ENABLE p q) || m.sq.issued.any (fun c => c.part == p)) = true := by
    simpa using .inl ⟨q, hq, hqueue⟩
  exact (if_neg (by decide)).trans ((if_neg (by simp [hon])).trans (if_pos hbusy))

end

/-- Settles O35: each write by its branches. -/
theorem allocationsAndEnables : Obligations.AllocationsAndEnables := by
  intro s who p a v len hp ha
  have hrow : decide (p < 16 ∧ a < 256) = true := by simp [hp, ha]
  have hpart : decide (p < 16) = true := by simp [hp]
  refine ⟨fun hserves hp0 hf => ?absent, fun hserves hopen hnone => ?alloc, fun hserves hopen => ⟨fun hon => ?stays, fun hoff hgroups hranges => ?enables,
    fun hon hqueues hissued => ?disables, fun q hq hon hqueue => ?queued⟩⟩
  case absent => exact State.run_served hrow hserves (allocService_absent hp0 hf)
  case alloc =>
    intro new m'
    have hpend := Mach.withPended_none hnone
    refine ⟨fun hrefs hgood hunsealed => ?_, fun hrefs hgood hsealed hwait => ?_, fun hbad => ?_⟩
    · exact State.run_served hrow hserves ((allocService_open hopen).trans (allocWrite_unsealed hpend hrefs hgood hunsealed))
    · exact State.run_served hrow hserves ((allocService_open hopen).trans (allocWrite_sealed hpend hrefs hgood hsealed hwait))
    · exact State.run_served hrow hserves ((allocService_open hopen).trans (allocWrite_refused hpend hbad))
  case stays =>
    exact (State.run_served (g := id) hpart hserves ((partitionWrite_open hopen).trans (partitionEnable_enabled hon)))
  case enables => exact State.run_served hpart hserves ((partitionWrite_open hopen).trans (partitionEnable_enables hoff hgroups hranges))
  case disables => exact State.run_served hpart hserves ((partitionWrite_open hopen).trans (partitionEnable_disables hon hqueues hissued))
  case queued => exact State.run_served hpart hserves ((partitionWrite_open hopen).trans (partitionEnable_queued hq hon hqueue))

end Sys2Proof.Machine
end

section
/-! PROOFS. Frames heard on a port: those that end here, those that go on, and the hop frames (R71 to R74, R79, R288 to R302). -/
namespace Sys2Proof.Machine

/-! ## Arrival (R290, R291, R297, R302) -/

section
variable {m : Mach} {n : Nat} {f : Frame} {data : Bytes} {land : Frame → Bytes → Mach → Mach}

/-- The six routed frames, each with its type. -/
def routedFrames (n : Nat) (f : Frame) : List (Instr × Nat) :=
  [(.writeFrame n f, 0x10), (.sealFrame n f, 0x11), (.readreqFrame n f, 0x12), (.readrepFrame n f, 0x13), (.atomreqFrame n f, 0x14), (.atomrepFrame n f, 0x15)]

/-- Every routed frame arrives, with an effect of its own where it ends. -/
theorem exec_routedFrame {x : Instr × Nat} (hx : x ∈ routedFrames n f) (s : State) :
    ∃ land, exec x.1 s = State.run (decide (n < 16)) (fun m => m.arrive n { f with typ := x.2 } land) s := by
  simp only [routedFrames, List.mem_cons, List.not_mem_nil, or_false] at hx
  rcases hx with rfl | rfl | rfl | rfl | rfl | rfl
  · exact ⟨landWrite n, rfl⟩
  · exact ⟨landSealFrame n, rfl⟩
  · exact ⟨fun f _ => serveRead n f, rfl⟩
  · exact ⟨landReadRep, rfl⟩
  · exact ⟨serveAtomic n, rfl⟩
  · exact ⟨landAtomRep, rfl⟩

theorem Mach.arrive_opens (h : m.reaches n f = true) (hopen : (m.counted n).openFrame { f with ret := retWith f n } = some data) :
    m.arrive n f land = land { f with ret := retWith f n } data ((m.counted n).hearFrame { f with ret := retWith f n }) := by
  rw [Mach.arrive_ends land h, hopen]

theorem Mach.arrive_authFails (h : m.reaches n f = true) (hopen : (m.counted n).openFrame { f with ret := retWith f n } = none) :
    m.arrive n f land = (m.counted n).authFail n := by
  rw [Mach.arrive_ends land h, hopen]

/-- A frame that ends at this block and whose tag verifies. -/
theorem State.run_arrive_opens {s : State} {g : Mach → Mach} (hn : n < 16) (h : s.m.reaches n f = true)
    (hopen : (s.m.counted n).openFrame { f with ret := retWith f n } = some data)
    (hg : land { f with ret := retWith f n } data ((s.m.counted n).hearFrame { f with ret := retWith f n }) = g s.m) :
    State.run (decide (n < 16)) (fun m => m.arrive n f land) s = .next (s.onMach g) :=
  State.run_eq (by simp [hn]) ((Mach.arrive_opens h hopen).trans hg)

/-! ## WRITE and SEAL frames (R72 to R74, R293, R294) -/

theorem landWrite_stores (h : f.len = 0 ∨ m.rangeOk f.addr (f.len * 32) = true ∧ m.granted f.dstPart true f.addr (f.len * 32) = true) :
    landWrite n f data m = (m.landBytes f.dstPart f.addr (slice data 0 (f.len * 32))).countWrite n f := by
  refine if_neg fun hbad => ?_
  obtain ⟨hlen, hno⟩ := hbad
  rcases h with h | ⟨hrange, hright⟩
  · exact hlen h
  · simp [hrange, hright] at hno

theorem landWrite_dropped (hlen : f.len ≠ 0) (h : m.rangeOk f.addr (f.len * 32) = false ∨ m.granted f.dstPart true f.addr (f.len * 32) = false) :
    landWrite n f data m = (m.loseWrite f 0).postLink n fkLinkRights := by
  refine if_pos ⟨hlen, ?_⟩
  rcases h with h | h <;> simp [h]

/-- The held seal that a SEAL frame brings. -/
def Mach.sealOf (m : Mach) (f : Frame) (data : Bytes) : HeldSeal :=
  ⟨f.addr, field data 30 1, field data 24 3, if field data 27 3 = 0 then none else some (m.tick + field data 27 3), slice data 0 24, f.env⟩

theorem landSealFrame_refused (h : f.addr % 32 ≠ 0 ∨ m.inBlock f.addr = false ∨ m.granted f.dstPart true f.addr 32 = false) :
    landSealFrame n f data m = m.postLink n fkLinkRights := by
  refine if_pos ?_
  rcases h with h | h | h
  · exact .inl h
  · exact .inr (by simp [h])
  · exact .inr (by simp [h])

section
variable (halign : f.addr % 32 = 0) (hblock : m.inBlock f.addr = true) (hright : m.granted f.dstPart true f.addr 32 = true)
include halign hblock hright

theorem landSealFrame_held {t : Transfer} (ht : m.transfer f.srcBlock f.dstPart f.xfer = some t) :
    landSealFrame n f data m = m.trySeal { t with held := some (m.sealOf f data) } :=
  (if_neg (by simp [halign, hblock, hright])).trans (by simp only [ht]; rfl)

theorem landSealFrame_first (ht : m.transfer f.srcBlock f.dstPart f.xfer = none) (hroom : m.tableFull f.dstPart = false) :
    landSealFrame n f data m = m.trySeal ⟨f.srcBlock, f.dstPart, f.xfer, 0, 0, some (m.sealOf f data), none⟩ :=
  (if_neg (by simp [halign, hblock, hright])).trans (by simp only [ht, hroom]; rfl)

theorem landSealFrame_full (ht : m.transfer f.srcBlock f.dstPart f.xfer = none) (hfull : m.tableFull f.dstPart = true) :
    landSealFrame n f data m = m.postLink n fkSealTable :=
  (if_neg (by simp [halign, hblock, hright])).trans (by simp only [ht, hfull, if_true])

end

/-! ## Requests of a neighbour (R78, R79, R294) -/

/-- The block once the mirrors of the bytes that a READREQ reads have served them. -/
def Mach.readMirrored (m : Mach) (f : Frame) : Mach := (m.mirrorAll false 0 none f.addr (f.len * 32)).2

theorem serveRead_outOfRange (hrange : m.rangeOk f.addr (f.len * 32) = false) : serveRead n f m = m.reply f 0x13 [] stAddrInvalid := if_pos (by simp [hrange])

section
variable (hrange : m.rangeOk f.addr (f.len * 32) = true)
include hrange

theorem serveRead_noRight (hright : m.granted f.dstPart false f.addr (f.len * 32) = false) :
    serveRead n f m = (m.postLink n fkLinkRights).reply f 0x13 [] stDescRights :=
  (if_neg (by simp [hrange])).trans (if_pos (by simp [hright]))

theorem serveRead_data (hright : m.granted f.dstPart false f.addr (f.len * 32) = true) (hue : (m.readMirrored f).readUe false f.addr (f.len * 32) = false) :
    serveRead n f m = ((m.readMirrored f).noteRead false f.addr (f.len * 32)).reply f 0x13 ((m.readMirrored f).read false f.addr (f.len * 32)) stOk :=
  (if_neg (by simp [hrange])).trans ((if_neg (by simp [hright])).trans (if_neg (Bool.eq_false_iff.mp hue)))

theorem serveRead_ue (hright : m.granted f.dstPart false f.addr (f.len * 32) = true) (hue : (m.readMirrored f).readUe false f.addr (f.len * 32) = true) :
    serveRead n f m = (((m.readMirrored f).noteRead false f.addr (f.len * 32)).postUnits false 0 none f.addr (f.len * 32)).reply f 0x13 [] stUe :=
  (if_neg (by simp [hrange])).trans ((if_neg (by simp [hright])).trans (if_pos hue))

end

theorem serveAtomic_refused (h : m.flag .RST_MODE_TEST = false) : serveAtomic n f data m = m.reply f 0x15 (toBytes 8 0) stNoRemoteAtomic :=
  if_pos (by simp [h])

theorem serveAtomic_done {wide : Bool} (hwide : (field data 1 1 == 1) = wide) (htest : m.flag .RST_MODE_TEST = true) (hrange : m.rangeOk f.addr (if wide then 8 else 4) = true)
    (hright : m.allowedRW 0 f.addr (if wide then 8 else 4) = true) (htarget : m.amoTarget f.addr wide = true) (hop : field data 0 1 ≤ 5) :
    serveAtomic n f data m = (m.amoDo 0 f.addr (field data 0 1) wide (field data 8 8) (field data 16 8)).2.reply f 0x15
      (toBytes 8 (m.amoDo 0 f.addr (field data 0 1) wide (field data 8 8) (field data 16 8)).1) stOk := by
  subst hwide
  have hgood : (!m.amoTarget f.addr (field data 1 1 == 1) || decide (5 < field data 0 1)) = false := by
    rw [htarget, decide_eq_false (Nat.not_lt.mpr hop)]
    rfl
  exact (if_neg (by simp [htest])).trans ((if_neg (by rw [hrange]; decide)).trans ((if_neg (by rw [hright]; decide)).trans (if_neg (Bool.eq_false_iff.mp hgood))))

/-! ## Replies (R293 to R296) -/

theorem landReadRep_unknown (h : m.requestOf f.rid = none) : landReadRep f data m = m.lateReply := by simp only [landReadRep, h]

theorem landAtomRep_unknown (h : m.requestOf f.rid = none) : landAtomRep f data m = m.lateReply := by simp only [landAtomRep, h]

section
variable {r : Request} {c : Issued} (h : m.requestOf f.rid = some (r, c))
include h

theorem landReadRep_late (hlate : m.replyLate c = true) : landReadRep f data m = (m.endRequests c stLinkLost).lateReply := by
  simp only [landReadRep, h, hlate, if_true]

variable (hearly : m.replyLate c = false) (hcauses : f.causes = 0)
include hearly hcauses

theorem landReadRep_failed (hstatus : f.status ≠ stOk) : landReadRep f data m = m.endRequests ((m.issuedOf c.id).getD c) f.status := by
  simp only [landReadRep, h, hearly, Bool.false_eq_true, if_false, Mach.neighbourOut, hcauses, if_true, if_pos hstatus]

/-- The block once a reply's data have landed at their request's address. -/
def Mach.replyLanded (m : Mach) (r : Request) (c : Issued) (data : Bytes) : Mach :=
  (m.landBytes c.part r.addr (slice data 0 r.len)).throttleTouch c.id (m.stacksOf r.addr r.len)

end

theorem landReadRep_lands {r : Request} {c : Issued} (h : m.requestOf f.rid = some (r, c)) (hearly : m.replyLate c = false) (hcauses : f.causes = 0) (hstatus : f.status = stOk) :
    landReadRep f data m =
      let c := (m.issuedOf c.id).getD c
      let k := m.replyLanded r c data
      let d := (k.issuedOf c.id).getD c
      let k' : Mach := { k with requests := k.requests.filter (fun x => x.rid != r.rid) }
      k'.setIssued { d with progress := k'.landedPrefix d, left := d.left - 1, result := if d.left ≤ 1 then some stOk else none } := by
  simp only [landReadRep, h, hearly, Bool.false_eq_true, if_false, Mach.neighbourOut, hcauses, if_true, if_neg (not_not_intro hstatus), Mach.replyLanded]
  rfl

theorem landAtomRep_lands {r : Request} {c : Issued} (h : m.requestOf f.rid = some (r, c)) (hearly : m.replyLate c = false) (hcauses : f.causes = 0) (hstatus : f.status = stOk) :
    landAtomRep f data m =
      let d := (m.issuedOf c.id).getD c
      let w := (m.throttleTouch d.id (m.stacksOf r.addr 8)).writeFor d.part d.id r.addr (slice data 0 8)
      w.1.endRequests { (w.1.issuedOf d.id).getD d with progress := 1 } w.2 := by
  simp only [landAtomRep, h, hearly, Bool.false_eq_true, if_false, Mach.neighbourOut, hcauses, if_true, if_neg (not_not_intro hstatus)]

end

/-- Settles O37: each frame that ends here by the branches of its landing. -/
theorem routedFramesHaveTheirEffect : Obligations.RoutedFramesHaveTheirEffect := by
  intro s n f data hn g opens
  refine ⟨fun x hx h hnone => ?authFails, fun hopens => ?write, fun hopens => ?held, fun hopens => ?readreq, fun hopens => ?readrep, fun hopens => ?atomreq, fun hopens => ?atomrep⟩
  case authFails =>
    obtain ⟨land, hexec⟩ := exec_routedFrame hx s
    rw [hexec]
    exact State.run_eq (by simp [hn]) (Mach.arrive_authFails h hnone)
  case write =>
    intro m
    exact ⟨fun h => State.run_arrive_opens hn hopens.1 hopens.2 (landWrite_stores h), fun hlen h => State.run_arrive_opens hn hopens.1 hopens.2 (landWrite_dropped hlen h)⟩
  case held =>
    intro m
    refine ⟨fun h => State.run_arrive_opens hn hopens.1 hopens.2 (landSealFrame_refused h), fun halign hblock hright => ?_⟩
    intro h
    refine ⟨fun t ht => ?_, fun ht hroom => ?_, fun ht hfull => ?_⟩
    · exact State.run_arrive_opens hn hopens.1 hopens.2 (landSealFrame_held halign hblock hright ht)
    · exact State.run_arrive_opens hn hopens.1 hopens.2 (landSealFrame_first halign hblock hright ht hroom)
    · exact State.run_arrive_opens hn hopens.1 hopens.2 (landSealFrame_full halign hblock hright ht hfull)
  case readreq =>
    intro m k
    refine ⟨fun hrange => ?_, fun hrange hright hue => ?_, fun hrange hright hue => ?_, fun hrange hright => ?_⟩
    · exact State.run_arrive_opens hn hopens.1 hopens.2 (serveRead_outOfRange hrange)
    · exact State.run_arrive_opens hn hopens.1 hopens.2 (serveRead_data hrange hright hue)
    · exact State.run_arrive_opens hn hopens.1 hopens.2 (serveRead_ue hrange hright hue)
    · exact State.run_arrive_opens hn hopens.1 hopens.2 (serveRead_noRight hrange hright)
  case readrep =>
    intro m
    refine ⟨fun h => ?_, fun r c h hlate => ?_, fun r c h hearly hstatus hcauses => ?_, fun r c h hearly hstatus hcauses => ?_⟩
    · exact State.run_arrive_opens hn hopens.1 hopens.2 (landReadRep_unknown h)
    · exact State.run_arrive_opens hn hopens.1 hopens.2 (landReadRep_late h hlate)
    · exact State.run_arrive_opens hn hopens.1 hopens.2 (landReadRep_failed h hearly hcauses hstatus)
    · exact State.run_arrive_opens hn hopens.1 hopens.2 (landReadRep_lands h hearly hcauses hstatus)
  case atomreq =>
    intro m
    refine ⟨fun h => ?_, fun wide hwide htest hrange hright htarget hop => ?_⟩
    · exact State.run_arrive_opens hn hopens.1 hopens.2 (serveAtomic_refused h)
    · exact State.run_arrive_opens hn hopens.1 hopens.2 (serveAtomic_done hwide htest hrange hright htarget hop)
  case atomrep =>
    intro m
    refine ⟨fun h => ?_, fun r c h hearly hstatus hcauses => ?_⟩
    · exact State.run_arrive_opens hn hopens.1 hopens.2 (landAtomRep_unknown h)
    · exact State.run_arrive_opens hn hopens.1 hopens.2 (landAtomRep_lands h hearly hcauses hstatus)

/-! ## Frames that do not end here (R290, R291, R302) -/

theorem Mach.hears_iff {m : Mach} {n : Nat} : m.hears n = true ↔ m.resets.cold = false ∧ m.portUp n = true := by simp [Mach.hears]

section
variable {m : Mach} {n : Nat} {f : Frame} {land : Frame → Bytes → Mach → Mach} (h : m.hears n = true)
include h

theorem Mach.not_deaf_of_hears : ¬(m.resets.cold || !m.portUp n) = true := by
  obtain ⟨hcold, hup⟩ := Mach.hears_iff.mp h
  simp [hcold, hup]

theorem Mach.arrive_stopped (hstop : (m.counted n).stoppedFrame n f = true) : m.arrive n f land = (m.counted n).inc .LINK_DISCARD_STOPPED 1 n :=
  (if_neg (Mach.not_deaf_of_hears h)).trans (if_pos hstop)

variable (hgo : (m.counted n).stoppedFrame n f = false)
include hgo

theorem Mach.arrive_relays (hhops : f.hidx < routeHops f.route) : m.arrive n f land = (m.counted n).relay { f with ret := retWith f n } :=
  (if_neg (Mach.not_deaf_of_hears h)).trans ((if_neg (Bool.eq_false_iff.mp hgo)).trans (if_pos hhops))

variable (hend : routeHops f.route ≤ f.hidx)
include hend

theorem Mach.arrive_misrouted (hblock : f.dstBlock ≠ (m.counted n).rd .GLOBAL_BLOCK_NUM) :
    m.arrive n f land = ((m.counted n).inc .LINK_DISCARD_ROUTE 1 n).postLink n fkLinkMisroute :=
  (if_neg (Mach.not_deaf_of_hears h)).trans ((if_neg (Bool.eq_false_iff.mp hgo)).trans ((if_neg (Nat.not_lt.mpr hend)).trans (if_pos hblock)))

theorem Mach.arrive_noService (hblock : f.dstBlock = (m.counted n).rd .GLOBAL_BLOCK_NUM) (hfw : (m.counted n).firmware = false) :
    m.arrive n f land = (m.counted n).inc .LINK_DISCARD_NOSERVICE 1 n :=
  (if_neg (Mach.not_deaf_of_hears h)).trans ((if_neg (Bool.eq_false_iff.mp hgo)).trans ((if_neg (Nat.not_lt.mpr hend)).trans
    ((if_neg (not_not_intro hblock)).trans (if_pos (congrArg (!·) hfw)))))

end

section
variable {m : Mach} {f : Frame}

/-- The block with a relayed frame counted and noted on its next port. -/
def Mach.relayNoted (m : Mach) (o : Nat) : Mach :=
  let k := (m.demand [portDom o]).inc .LINK_RELAYED_COUNT 1 o
  { k with power := { k.power with relayAt := put natBefore o k.tick k.power.relayAt } }

theorem Mach.relay_up (h : m.portUp (routePort f.route f.hidx) = true) :
    m.relay f = { m.relayNoted (routePort f.route f.hidx) with
      txq := (m.relayNoted (routePort f.route f.hidx)).txq ++ [⟨routePort f.route f.hidx, 4, { f with hidx := f.hidx + 1 }, none⟩] } := by
  simp only [Mach.relay, h, if_true, Mach.relayNoted]
  rfl

theorem Mach.relay_down (h : m.portUp (routePort f.route f.hidx) = false) :
    m.relay f = (m.inc .LINK_DISCARD_DOWN 1 (routePort f.route f.hidx)).noteRoute (routePort f.route f.hidx) := if_neg (Bool.eq_false_iff.mp h)

end

/-- Settles O38: a frame's branches before it ends. -/
theorem framesAreRelayedOrDiscarded : Obligations.FramesAreRelayedOrDiscarded := by
  intro s n f hn hears m o x hx
  obtain ⟨land, hexec⟩ := exec_routedFrame hx s
  have hok : decide (n < 16) = true := by simp [hn]
  rw [hexec]
  refine ⟨fun hstop => ?stopped, fun hgo hhops hup => ?relays, fun hgo hhops hdown => ?relayDown, fun hgo hend hblock => ?misrouted, fun hgo hend hblock hfw => ?noService⟩
  case stopped => exact State.run_eq hok (Mach.arrive_stopped hears hstop)
  case relays => exact State.run_eq hok ((Mach.arrive_relays (f := { f with typ := x.2 }) hears hgo hhops).trans (Mach.relay_up (f := { f with typ := x.2, ret := retWith f n }) hup))
  case relayDown => exact State.run_eq hok ((Mach.arrive_relays (f := { f with typ := x.2 }) hears hgo hhops).trans (Mach.relay_down (f := { f with typ := x.2, ret := retWith f n }) hdown))
  case misrouted => exact State.run_eq hok (Mach.arrive_misrouted hears hgo hend hblock)
  case noService => exact State.run_eq hok (Mach.arrive_noService hears hgo hend hblock hfw)

end Sys2Proof.Machine
end

section
/-! PROOFS. Hop frames, and the frames and timers of the pair (R288, R298, R301 to R307). -/
namespace Sys2Proof.Machine

/-! ## Hop frames (R288, R298, R301, R302) -/

/-- A hop frame that is heard. -/
theorem State.run_hop {s : State} {n : Nat} {f g : Mach → Mach} (hn : n < 16) (ha : s.m.awake = true) (hears : s.m.hears n = true) (hg : f (s.m.counted n) = g s.m) :
    State.run (decide (n < 16)) (act (fun m => m.arriveHop n f)) s = .next (s.onMach g) :=
  State.run_act_eq (by simp [hn]) ha ((Mach.arriveHop_heard f hears).trans hg)

section
variable {m : Mach} {n gm dist sender sub : Nat}

section
variable (hears : m.hears n = true)
include hears

/-- A port that is heard takes a TRAIN frame. -/
theorem Mach.train_heard : ¬(m.resets.cold || !(m.trains n || m.portUp n)) = true := by
  obtain ⟨hcold, hup⟩ := Mach.hears_iff.mp hears
  simp [hcold, hup]

theorem trainFrame_dark (hup : (m.counted n).portUp n = true) : trainFrame n true m = ((m.counted n).wr .LINK_STATE_STATE 0 n).dropQueue n :=
  (if_neg (Mach.train_heard hears)).trans ((if_pos rfl).trans (if_pos hup))

theorem trainFrame_lit (htrains : (m.counted n).trains n = false) : trainFrame n false m = m.counted n :=
  (if_neg (Mach.train_heard hears)).trans ((if_neg Bool.false_ne_true).trans (if_neg (Bool.eq_false_iff.mp htrains)))

end

/-- What a SYNC frame makes of a block that hears it. -/
def Mach.takeSync (m : Mach) (n gm dist sender sub : Nat) : Mach :=
  if m.rd .TIME_CTL_ROLE ≠ 0 ∨ 63 ≤ dist then m
  else
    let k : Mach := { m with time := { m.time with sync := { m.time.sync with heard := ⟨n, gm, dist, m.tick⟩ :: m.time.sync.heard.filter (fun x => x.port != n) } } }
    match k.source with
    | some b =>
      let k : Mach := { k.wr .TIME_SYNC_PORT b.port with time := { k.time with sync := { k.time.sync with gm := b.gm, dist := b.dist } } }
      if b.port = n then k.acceptSync n ((sender : Int) + 180 - ((k.tick * 100 + sub % 100 : Nat) : Int)) else k
    | none => k

theorem syncFrame_eq : syncFrame n gm dist sender sub m = m.arriveHop n (fun m => m.takeSync n gm dist sender sub) := rfl

theorem Mach.takeSync_ignored (h : m.rd .TIME_CTL_ROLE ≠ 0 ∨ 63 ≤ dist) : m.takeSync n gm dist sender sub = m := if_pos h

section
variable (hrole : m.rd .TIME_CTL_ROLE = 0) (hdist : dist < 63) {b : SyncHeard}
  (hsource : ({ m with time := { m.time with sync := { m.time.sync with
    heard := ⟨n, gm, dist, m.tick⟩ :: m.time.sync.heard.filter (fun x => x.port != n) } } } : Mach).source = some b)
include hrole hdist hsource

theorem Mach.takeSync_accepts (hport : b.port = n) : m.takeSync n gm dist sender sub =
    let k : Mach := { m with time := { m.time with sync := { m.time.sync with heard := ⟨n, gm, dist, m.tick⟩ :: m.time.sync.heard.filter (fun x => x.port != n) } } }
    let k' : Mach := { k.wr .TIME_SYNC_PORT b.port with time := { k.time with sync := { k.time.sync with gm := b.gm, dist := b.dist } } }
    k'.acceptSync n ((sender : Int) + 180 - ((m.tick * 100 + sub % 100 : Nat) : Int)) :=
  (if_neg (by omega)).trans (by simp only [hsource]; exact if_pos hport)

theorem Mach.takeSync_otherSource (hport : b.port ≠ n) : m.takeSync n gm dist sender sub =
    let k : Mach := { m with time := { m.time with sync := { m.time.sync with heard := ⟨n, gm, dist, m.tick⟩ :: m.time.sync.heard.filter (fun x => x.port != n) } } }
    { k.wr .TIME_SYNC_PORT b.port with time := { k.time with sync := { k.time.sync with gm := b.gm, dist := b.dist } } } :=
  (if_neg (by omega)).trans (by simp only [hsource]; exact if_neg hport)

end

end

/-- Settles O39: each hop frame by its effect on a port that hears it. -/
theorem hopFramesAct : Obligations.HopFramesAct := by
  intro s n src mask gm dist sender sub hn ha hears m
  have hok : decide (n < 16) = true := by simp [hn]
  refine ⟨?unknown, fun hup => ?dark, fun htrains => ?lit, ?stop, fun hsrc => ?start, fun hsrc => ?startOther, fun h => ?syncIgnored, fun hrole hdist => ?sync⟩
  case unknown => exact State.run_hop hn ha hears rfl
  case dark => exact State.run_eq hok (trainFrame_dark hears hup)
  case lit => exact State.run_eq hok (trainFrame_lit hears htrains)
  case stop => exact State.run_hop hn ha hears rfl
  case start => exact State.run_hop hn ha hears (if_pos hsrc)
  case startOther => exact State.run_hop hn ha hears (if_neg hsrc)
  case syncIgnored => exact State.run_hop hn ha hears (Mach.takeSync_ignored h)
  case sync =>
    intro k b hsource k'
    exact ⟨fun hport => State.run_hop hn ha hears (Mach.takeSync_accepts hrole hdist hsource hport),
      fun hport => State.run_hop hn ha hears (Mach.takeSync_otherSource hrole hdist hsource hport)⟩

/-! ## Frames of the twin (R288, R297, R303 to R307) -/

/-- The three frames of the pair, each with its type. -/
def pairFrames (n : Nat) (f : Frame) : List (Instr × Nat) := [(.digestFrame n f, 0x20), (.checkFrame n f, 0x21), (.fenceFrame (n, f), 0x22)]

section
variable {s : State} {n : Nat} {f : Frame}

/-- Every frame of the pair arrives on its port, with an effect of its own. -/
theorem exec_pairFrame {x : Instr × Nat} (hx : x ∈ pairFrames n f) (s : State) :
    ∃ k, exec x.1 s = State.run (decide (n < 16)) (act (fun m => m.arrivePair n { f with typ := x.2 } k)) s := by
  simp only [pairFrames, List.mem_cons, List.not_mem_nil, or_false] at hx
  rcases hx with rfl | rfl | rfl
  · exact ⟨fun data m => m.takeDigest n (digestOf data), rfl⟩
  · exact ⟨fun data m => m.takeCheck (if field data 0 1 = 0 then .pass else .fail) (some (field data 8 6)), rfl⟩
  · exact ⟨fun _ m => m.takeCheck .fail none, rfl⟩

variable {k : Bytes → Mach → Mach} {g : Mach → Mach} (hn : n < 16) (ha : s.m.awake = true) (hears : s.m.hears n = true)
include hn ha hears

/-- A frame of the pair on a port that is not the pair's. -/
theorem State.run_pair_elsewhere (hoff : (s.m.counted n).flag .LINK_PAIR_ENABLE = false ∨ (s.m.counted n).rd .LINK_PAIR_PORT ≠ n) :
    State.run (decide (n < 16)) (act (fun m => m.arrivePair n f k)) s = .next (s.onMach (fun _ => (s.m.counted n).inc .LINK_DISCARD_ROUTE 1 n)) := by
  refine State.run_hop hn ha hears (if_neg ?_)
  rcases hoff with h | h <;> simp [h]

variable (hon : (s.m.counted n).flag .LINK_PAIR_ENABLE = true) (hport : (s.m.counted n).rd .LINK_PAIR_PORT = n)
include hon hport

/-- A frame of the pair whose tag fails. -/
theorem State.run_pair_authFails (hopen : (s.m.counted n).openFrame f = none) :
    State.run (decide (n < 16)) (act (fun m => m.arrivePair n f k)) s = .next (s.onMach (fun _ => (s.m.counted n).authFail n)) :=
  State.run_hop hn ha hears ((if_pos (by simp [hon, hport])).trans (by simp only [Mach.arriveSealed, hopen]))

/-- A frame of the pair whose tag verifies. -/
theorem State.run_pair_opens {data : Bytes} (hopen : (s.m.counted n).openFrame f = some data) (hg : k data ((s.m.counted n).hearFrame f) = g s.m) :
    State.run (decide (n < 16)) (act (fun m => m.arrivePair n f k)) s = .next (s.onMach g) :=
  State.run_hop hn ha hears ((if_pos (by simp [hon, hport])).trans (by simpa only [Mach.arriveSealed, hopen] using hg))

end

section
variable {m : Mach} {n : Nat} {d : Digest} {w : PairWait} {o t : Digest}

/-- The block with the twin's digest held for the EMIT of its step. -/
def Mach.digestHeld (m : Mach) (d : Digest) : Mach :=
  let m := m.setMon d.part { m.mon d.part with twin := some (d.actmask, d.warn, d.miss) }
  { m with pair := { m.pair with twins := d :: m.pair.twins.filter (fun x => x.part != d.part) } }

section
variable (hopen : m.flag .SEQR_STEP_OPEN d.part = true) (hnum : m.rd .SEQR_STEP_NUM d.part = d.step)
include hopen hnum

theorem Mach.takeDigest_held (hwait : m.pair.waits.find? (fun w => w.part == d.part) = none) : m.takeDigest n d = m.digestHeld d := by
  have hstep : (m.flag .SEQR_STEP_OPEN d.part && m.rd .SEQR_STEP_NUM d.part == d.step) = true := by simp [hopen, hnum]
  have hwait' : (m.digestHeld d).pair.waits.find? (fun w => w.part == d.part) = none := hwait
  simp only [Mach.digestHeld] at hwait' ⊢
  simp only [Mach.takeDigest, if_pos hstep, hwait']

theorem Mach.takeDigest_compares (hwait : m.pair.waits.find? (fun w => w.part == d.part) = some w) : m.takeDigest n d = (m.digestHeld d).pairCompare w := by
  have hstep : (m.flag .SEQR_STEP_OPEN d.part && m.rd .SEQR_STEP_NUM d.part == d.step) = true := by simp [hopen, hnum]
  have hwait' : (m.digestHeld d).pair.waits.find? (fun w => w.part == d.part) = some w := hwait
  simp only [Mach.digestHeld] at hwait' ⊢
  simp only [Mach.takeDigest, if_pos hstep, hwait']

end

theorem Mach.takeDigest_other (h : m.flag .SEQR_STEP_OPEN d.part = false ∨ m.rd .SEQR_STEP_NUM d.part ≠ d.step) : m.takeDigest n d = m.postLink n fkPairSeq := by
  refine if_neg ?_
  rcases h with h | h <;> simp [h]

/-! ## The own digest and the comparison (R304) -/

/-- The digest that the EMIT of a wait makes. -/
def Mach.ownDigest (m : Mach) (w : PairWait) : Digest :=
  ⟨slice (Config.sha512 ((w.staged.map digestBytes).flatten)) 0 32, m.rd .SEQR_STEP_NUM w.part, w.part, (m.mon w.part).bad, (m.mon w.part).warned, (m.mon w.part).missed,
    (m.mon w.part).fired⟩

theorem digestReady_first (h : m.pair.waits.find? (fun w => w.own.isNone) = some w) : digestReady m =
    let k := m.sendTwin 0x20 (digestData (m.ownDigest w))
    let w' : PairWait := { w with own := some (m.ownDigest w), sentAt := k.tick }
    ({ k with pair := { k.pair with waits := k.pair.waits.map (fun x => if x.cmdId = w.cmdId then w' else x) } } : Mach).pairCompare w' := by
  simp only [digestReady, h, Mach.ownDigest]

section
variable (hown : w.own = some o) (htwin : m.twinOf o = some t)
include hown

theorem Mach.pairCompare_bad (hbad : o.bad = true) : m.pairCompare w = m.withhold w stWithdrawn := by
  simp only [Mach.pairCompare, hown, hbad, if_true]

include htwin

theorem Mach.pairCompare_agrees (hgood : o.bad = false) (h : t.bad = true ∨ t.hash = slice o.hash 0 32) :
    m.pairCompare w = (m.wr .LINK_PAIR_LASTSTEP o.step).release w := by
  have hagree : (t.bad || t.hash == slice o.hash 0 32) = true := by simpa using h
  simp only [Mach.pairCompare, hown, hgood, htwin, hagree, if_true, Bool.false_eq_true, if_false]

theorem Mach.pairCompare_differs (hgood : o.bad = false) (hsound : t.bad = false) (h : t.hash ≠ slice o.hash 0 32) :
    m.pairCompare w = (m.wr .LINK_PAIR_LASTSTEP o.step).pairMismatch w := by
  have hdiffer : (t.bad || t.hash == slice o.hash 0 32) = false := by simpa [hsound] using h
  simp only [Mach.pairCompare, hown, hgood, htwin, hdiffer, Bool.false_eq_true, if_false]

end

/-! ## Timers of the pair (R304, R305) -/

section
variable (hwait : m.pair.waits.find? (fun w => w.own.isSome && decide (w.sentAt + m.rd .LINK_PAIR_WAIT ≤ m.tick)) = some w) (hown : w.own = some o)
include hwait hown

theorem pairWaitExpiry_bad (hbad : o.bad = true) : pairWaitExpiry m = m.withhold w stWithdrawn := by
  simp only [pairWaitExpiry, hwait, hown, Option.any_some, hbad, if_true]

theorem pairWaitExpiry_solo (hgood : o.bad = false) (hsolo : m.rd .LINK_PAIR_STATE = 3) : pairWaitExpiry m = m.release w := by
  simp only [pairWaitExpiry, hwait, hown, Option.any_some, hgood, Bool.false_eq_true, if_false, if_pos hsolo]

theorem pairWaitExpiry_paired (hgood : o.bad = false) (hpair : m.rd .LINK_PAIR_STATE ≠ 3) : pairWaitExpiry m = m.pairMismatch w := by
  simp only [pairWaitExpiry, hwait, hown, Option.any_some, hgood, Bool.false_eq_true, if_false, if_neg hpair]

end

theorem pairWaitExpiry_early (h : ∀ w ∈ m.pair.waits, w.own.isSome = true → m.tick < w.sentAt + m.rd .LINK_PAIR_WAIT) : pairWaitExpiry m = m := by
  have hnone : m.pair.waits.find? (fun w => w.own.isSome && decide (w.sentAt + m.rd .LINK_PAIR_WAIT ≤ m.tick)) = none := by
    simpa [List.find?_eq_none] using h
  simp only [pairWaitExpiry, hnone]

theorem pairGraceExpiry_lost (hstate : m.rd .LINK_PAIR_STATE = 2) (hown : m.pair.ownCheck = some .pass) (hsilent : m.pair.heard = none)
    (hdue : m.pair.checkAt + m.rd .LINK_PAIR_GRACE ≤ m.tick) :
    pairGraceExpiry m = ((m.pairSettle 3).inc .LINK_PAIR_LOST).postLink (m.rd .LINK_PAIR_PORT) fkPairLost := if_pos ⟨hstate, hown, hsilent, hdue⟩

end

/-- Settles O40: each frame and timer of the pair by its branches. -/
theorem pairFramesAndTimers : Obligations.PairFramesAndTimers := by
  intro s n f data hn ha m d rows
  refine ⟨fun x hx hears hoff => ?elsewhere, fun hears hon hport => ⟨fun x hx hopen => ?authFails, fun hopen => ?digest, fun hopen => ?check, fun hopen => ?fence⟩,
    fun w hw => ?ready, fun w o t hown htwin => ?compare, fun w o hwait hown => ?waits, fun hearly => ?early, fun hstate hown hsilent hdue => ?grace⟩
  case elsewhere =>
    obtain ⟨k, hexec⟩ := exec_pairFrame hx s
    rw [hexec]
    exact State.run_pair_elsewhere hn ha hears hoff
  case authFails =>
    obtain ⟨k, hexec⟩ := exec_pairFrame hx s
    rw [hexec]
    exact State.run_pair_authFails hn ha hears hon hport hopen
  case digest =>
    intro k k' held
    refine ⟨fun hstep hnum => ⟨fun hwait => ?_, fun w hwait => ?_⟩, fun hother => ?_⟩
    · exact State.run_pair_opens hn ha hears hon hport hopen (Mach.takeDigest_held hstep hnum hwait)
    · exact State.run_pair_opens hn ha hears hon hport hopen (Mach.takeDigest_compares hstep hnum hwait)
    · exact State.run_pair_opens hn ha hears hon hport hopen (Mach.takeDigest_other hother)
  case check =>
    intro k v
    exact State.run_pair_opens hn ha hears hon hport hopen rfl
  case fence =>
    intro k
    exact State.run_pair_opens hn ha hears hon hport hopen rfl
  case ready => exact State.does_act_eq ha (digestReady_first hw)
  case compare =>
    intro k
    exact ⟨Mach.pairCompare_bad hown, fun hgood h => Mach.pairCompare_agrees hown htwin hgood h, fun hgood hsound h => Mach.pairCompare_differs hown htwin hgood hsound h⟩
  case waits =>
    refine ⟨fun hbad => ?_, fun hgood hsolo => ?_, fun hgood hpair => ?_⟩
    · exact State.does_act_eq ha (pairWaitExpiry_bad hwait hown hbad)
    · exact State.does_act_eq ha (pairWaitExpiry_solo hwait hown hgood hsolo)
    · exact State.does_act_eq ha (pairWaitExpiry_paired hwait hown hgood hpair)
  case early => exact State.does_act_fixed ha (pairWaitExpiry_early hearly)
  case grace => exact State.does_act_eq ha (pairGraceExpiry_lost hstate hown hsilent hdue)

end Sys2Proof.Machine
end

section
/-! PROOFS. Timers of the links and of time, and the ports (R74, R286, R292, R295, R298 to R301, R308, R419). -/
namespace Sys2Proof.Machine

/-! ## Timers of transfers, replies and synchronisation (R74, R295, R298, R299) -/

theorem Mach.cold_of_awake {m : Mach} (h : m.awake = true) : m.resets.cold = false := by
  simp only [Mach.awake, Bool.and_eq_true, Bool.not_eq_true'] at h
  exact h.1

section
variable {m : Mach} {src p q x : Nat} {t : Transfer}

theorem sealHoldExpiry_lands {h : HeldSeal} {l : Nat} (ht : m.transfer src p x = some t) (hheld : t.held = some h) (hlimit : h.limit = some l) (hdue : l ≤ m.tick) :
    sealHoldExpiry src p x m = m.landSeal t h stSealTimeout := by
  simp only [sealHoldExpiry, ht, hheld, hlimit, if_pos hdue]

theorem transferRelease_released {c : Nat} (ht : m.transfer src p x = some t) (hclosed : t.closedAt = some c) (hdue : c + 10000 ≤ m.tick) (hheld : t.held = none) :
    transferRelease src p x m = { m with transfers := m.transfers.filter (fun u => !u.is src p x), frags := m.frags.filter (fun g => !g.is src p x) } := by
  simp only [transferRelease, ht, hclosed, if_pos hdue, hheld]
  rfl

theorem replyLimit_alone {c : Issued} (hissued : m.sq.issued = [c]) (hp : c.part = p) (hq : c.queue = q) (hruns : c.result = none) (hreq : ∃ r ∈ m.requests, r.cmdId = c.id)
    (hlate : m.replyLate c = true) : replyLimit p q m = m.endRequests c stLinkLost := by
  have hwaits : m.requests.any (fun r => r.cmdId == c.id) = true := by simpa using hreq
  have hthe : m.sq.issued.filter (fun c => c.part == p && c.queue == q && c.result.isNone && m.requests.any (fun r => r.cmdId == c.id) && m.replyLate c) = [c] := by
    rw [hissued]
    simp [hp, hq, hruns, hwaits, hlate]
  simp only [replyLimit, hthe, List.foldl_cons, List.foldl_nil]

/-- The block with a SYNC frame queued on every UP port. -/
def Mach.sendSync (m : Mach) (gm dist : Nat) : Mach :=
  m.upPorts.foldl (fun m n => m.enqueue n 2 (m.hopFrame 2 (toBytes 8 0 ++ toBytes 2 gm ++ toBytes 1 dist ++ List.replicate 21 0)) none) m

section
variable (hcold : m.resets.cold = false)
include hcold

theorem syncSend_grandmaster (hrole : m.rd .TIME_CTL_ROLE = 1) : syncSend m = m.sendSync (m.rd .GLOBAL_BLOCK_NUM) 0 := by
  simp [syncSend, hcold, hrole, Mach.sendSync]

theorem syncSend_locked (hrole : m.rd .TIME_CTL_ROLE ≠ 1) (hstate : m.rd .TIME_SYNC_STATE = 2) : syncSend m = m.sendSync m.time.sync.gm (m.time.sync.dist + 1) := by
  simp [syncSend, hcold, hrole, hstate, Mach.sendSync]

end

section
variable (hrole : m.rd .TIME_CTL_ROLE = 0) (hsilent : m.liveSources = [])
include hrole hsilent

theorem syncSilence_locked (hstate : m.rd .TIME_SYNC_STATE = 2) : syncSilence m = m.syncTo 3 :=
  (if_neg (by simp [hrole, hsilent])).trans (by simp only [hstate])

theorem syncSilence_acquiring (hstate : m.rd .TIME_SYNC_STATE = 1) : syncSilence m = m.syncTo 0 :=
  (if_neg (by simp [hrole, hsilent])).trans (by simp only [hstate])

end

end

/-- Settles O41: each timer at its limit. -/
theorem linkTimersExpire : Obligations.LinkTimersExpire := by
  intro s src p q x t ha hsrc hp hq hx
  have hid : decide (src < 1024 ∧ p < 16 ∧ x < 65536) = true := by simp [hsrc, hp, hx]
  refine ⟨fun h l ht hheld hlimit hdue => ?held, fun c ht hclosed hdue hheld => ?closed, fun c hissued hpart hqueue hruns hreq hlate => ?replies, fun gm dist hsends => ?sends,
    fun m e he => if_pos he, fun hrole hsilent => ⟨fun hstate => ?locked, fun hstate => ?acquiring⟩, fun hrole hstate hdue => ?holdover⟩
  case held => exact State.run_act_eq hid ha (sealHoldExpiry_lands ht hheld hlimit hdue)
  case closed => exact State.run_act_eq hid ha (transferRelease_released ht hclosed hdue hheld)
  case replies => exact State.run_act_eq (by simp [hp, hq]) ha (replyLimit_alone hissued hpart hqueue hruns hreq (decide_eq_true hlate))
  case sends =>
    have hcold := Mach.cold_of_awake ha
    rcases hsends with ⟨hrole, rfl, rfl⟩ | ⟨hrole, hstate, rfl, rfl⟩
    · exact State.does_act_eq (g := fun m => m.sendSync (s.m.rd .GLOBAL_BLOCK_NUM) 0) ha (syncSend_grandmaster hcold hrole)
    · exact State.does_act_eq (g := fun m => m.sendSync s.m.time.sync.gm (s.m.time.sync.dist + 1)) ha (syncSend_locked hcold hrole hstate)
  case locked => exact State.does_act_eq ha (syncSilence_locked hrole hsilent hstate)
  case acquiring => exact State.does_act_eq ha (syncSilence_acquiring hrole hsilent hstate)
  case holdover => exact State.does_act_eq ha (if_pos ⟨hrole, hstate, hdue⟩)

/-! ## Ports (R286, R292, R300, R301, R308) -/

section
variable {m : Mach} {n : Nat}

/-- A frame leaves its port: counted, and sent as its transmission makes it. -/
def Mach.frameSent (m : Mach) (n : Nat) (e : TxEntry) : Mach :=
  let r := ({ m with txq := m.txq.erase e } : Mach).outFrame e
  (r.1.inc .LINK_TXFRAMES_COUNT 1 n).emit (.frame n r.2)

section
variable (hcold : m.resets.cold = false) (hup : m.portUp n = true) {e : TxEntry} (he : m.nextFrame n = some e)
include hcold hup he

theorem portSend_unowned (howner : e.owner = none) : portSend n m = m.frameSent n e := by
  simp [portSend, hcold, hup, he, howner, Mach.isAsap, Mach.frameSent]

theorem portSend_owned {id : Nat} (howner : e.owner = some id) (hcarries : e.frame.carries = true) : portSend n m =
    let k := (m.frameSent n e).frameLeft id e.frame.len
    if k.isAsap (some id) = true then k.takeOutWhere causeAsap (fun c => c.sched != 0 && k.txq.any (fun x => x.port == n && x.owner == some c.id)) else k := by
  simp only [portSend, hcold, hup, he, howner, hcarries, Mach.frameSent, Bool.not_true, Bool.or_self, Bool.false_eq_true, if_false, if_true]
  rfl

end

theorem signalLoss_fails (h : m.rd .LINK_STATE_STATE n = 1 ∨ m.rd .LINK_STATE_STATE n = 2) : signalLoss n m = m.portFail n := if_pos h.symm

theorem signalLoss_ignored (h1 : m.rd .LINK_STATE_STATE n ≠ 1) (h2 : m.rd .LINK_STATE_STATE n ≠ 2) : signalLoss n m = m := if_neg (by omega)

theorem fecFail_header {f : Frame} (hup : m.portUp n = true) : fecFail n (some f) m =
    let k := ((m.inc .LINK_FEC_FAIL 1 n).postLink n fkLinkFec).setCauses f.dstPart causeFec
    let k := k.takeOutWhere causeFec (fun c => [f.dstPart].contains c.part && k.onPort n c)
    let l := if f.dstBlock = k.rd .GLOBAL_BLOCK_NUM ∧ routeHops f.route ≤ f.hidx then k.frameLost f else k
    let times := l.tick :: l.recentFec n
    let k : Mach := { l with fecTimes := put natBefore n times l.fecTimes }
    if 8 < times.length then k.portFail n else k := if_pos hup

theorem retrainTimer_trains (hstate : m.rd .LINK_STATE_STATE n = 3) (hhold : m.flag .LINK_CTL_HOLD n = false) (hplug : m.plugged n = true) :
    retrainTimer n m = m.wr .LINK_STATE_STATE 1 n := if_pos ⟨hstate, by simp [hhold], hplug⟩

theorem retrainTimer_held (hhold : m.flag .LINK_CTL_HOLD n = true) : retrainTimer n m = m := if_neg (by simp [hhold])

theorem retrain_enabled (h : m.flag .LINK_CTL_ENABLE n = true) : retrain n m = (m.dropQueue n).wr .LINK_STATE_STATE 1 n := if_pos h

theorem retrain_dark (h : m.flag .LINK_CTL_ENABLE n = false) : retrain n m = m := if_neg (Bool.eq_false_iff.mp h)

/-! ## Plugs (R419) -/

theorem plugRemoved_enabled (hplug : m.plugged n = true) (hon : m.flag .LINK_CTL_ENABLE n = true) : plugRemoved n m =
    let k := ({ m with unplugged := nset (fun _ => false) m.unplugged n true } : Mach).emit (.pin (16 + n) false)
    if m.rd .LINK_STATE_STATE n = 1 ∨ m.rd .LINK_STATE_STATE n = 2 then k.portFail n else k :=
  (if_neg (by simp [hplug])).trans (by simp only [show ({ m with unplugged := nset (fun _ => false) m.unplugged n true } : Mach).flag .LINK_CTL_ENABLE n = true from hon, if_true]; rfl)

theorem plugInserted_absent (hplug : m.plugged n = false) : plugInserted n m =
    let k : Mach := { m with unplugged := nset (fun _ => false) m.unplugged n false }
    if k.flag .LINK_CTL_ENABLE n = true then k.emit (.pin (16 + n) true) else k := if_neg (Bool.eq_false_iff.mp hplug)

end

/-- A row of a link that power alone holds back. -/
theorem State.run_powered {s : State} {ok : Bool} {f g : Mach → Mach} (hok : ok = true) (hcold : s.m.resets.cold = false) (h : f s.m = g s.m) :
    State.run ok (powered f) s = .next (s.onMach g) := State.run_eq hok ((if_neg (by simp [hcold])).trans h)

/-- Settles O42: each event of a port by its branches. -/
theorem portsFollowTheirLinks : Obligations.PortsFollowTheirLinks := by
  intro s n hn hcold st failed
  have hok : decide (n < 16) = true := by simp [hn]
  refine ⟨fun e hup he howner => ?sendsOwn, fun e id hup he howner hcarries => ?sends, fun h => ?loss, fun h1 h2 => ?noLoss, fun f hup => ?fec,
    fun hstate hhold hplug => ?retrains, fun hstate hhold => ?heldDown, fun who hserves => ⟨fun hon => ?retrain, fun hoff => ?retrainDark⟩,
    fun htrains => ⟨fun nb np fib => ?up, ?tooLong, ?fails⟩, fun hplug hon => ?removed, fun hplug => ?inserted⟩
  case sendsOwn => exact State.run_eq hok (portSend_unowned hcold hup he howner)
  case sends => exact State.run_eq hok (portSend_owned hcold hup he howner hcarries)
  case loss => exact State.run_powered hok hcold (signalLoss_fails h)
  case noLoss => exact State.run_powered (g := id) hok hcold (signalLoss_ignored h1 h2)
  case fec =>
    intro m k l times
    exact State.run_powered hok hcold (fecFail_header hup)
  case retrains => exact State.run_powered hok hcold (retrainTimer_trains hstate hhold hplug)
  case heldDown => exact State.run_powered (g := id) hok hcold (retrainTimer_held hhold)
  case retrain => exact State.run_served hok hserves (retrain_enabled hon)
  case retrainDark => exact State.run_served (g := id) hok hserves (retrain_dark hoff)
  case up => exact State.run_powered hok hcold (if_pos htrains)
  case tooLong => exact State.run_powered hok hcold (if_pos htrains)
  case fails => exact State.run_powered hok hcold (if_pos htrains)
  case removed => exact State.run_eq hok (plugRemoved_enabled hplug hon)
  case inserted => exact State.run_eq hok (plugInserted_absent hplug)

end Sys2Proof.Machine
end

section
/-! PROOFS. The host port: CXL.mem, the messages beside it, and its modules (R309 to R314, R370). -/
namespace Sys2Proof.Machine

/-! ## CXL.mem (R313, R314, R370) -/

section
variable {m : Mach} {a n c : Nat} {bs : Bytes}

/-- An access within one granule is one piece. -/
theorem pieceStarts_within (hpos : 0 < n) (hin : a % 256 + n ≤ 256) : pieceStarts 256 a n = [a] := by
  obtain ⟨k, rfl⟩ : ∃ k, n = k + 1 := ⟨n - 1, by omega⟩
  have htail : ((List.range k).map Nat.succ).filter (fun i => i == 0 || (a + i) % 256 == 0) = [] := by
    simp only [List.filter_eq_nil_iff, List.mem_map, List.mem_range, Bool.or_eq_true, beq_iff_eq, forall_exists_index, and_imp]
    intro i j hj hi
    omega
  simp [pieceStarts, List.range_succ_eq_map, htail]

theorem pieces_within (hne : bs ≠ []) (hin : a % 256 + bs.length ≤ 256) : pieces 256 a bs = [(a, bs)] := by
  simp only [pieces, pieceStarts_within (List.length_pos_iff.mpr hne) hin, List.map_cons, List.map_nil, Nat.sub_self, List.drop_zero]
  rw [List.take_of_length_le (by omega)]

theorem Mach.decoded_iff : m.decoded a n = true ↔ m.flag .UCIE_STAT_HDMCOMMIT = true ∧ a + n ≤ 384 * 2 ^ 30 := by
  rw [Mach.decoded, Bool.and_eq_true, decide_eq_true_eq, hdmSize]

theorem Mach.not_decoded (h : m.flag .UCIE_STAT_HDMCOMMIT = false ∨ 384 * 2 ^ 30 < a + n) : ¬m.decoded a n = true := by
  rw [Mach.decoded_iff]
  rintro ⟨hcommit, hfits⟩
  rcases h with h | h
  · simp [h] at hcommit
  · omega

theorem memRead_outside (h : m.flag .UCIE_STAT_HDMCOMMIT = false ∨ 384 * 2 ^ 30 < a + n) : memRead a n m = m.hdmMiss.poisonAnswer := if_neg (Mach.not_decoded h)

theorem memWrite_outside (h : m.flag .UCIE_STAT_HDMCOMMIT = false ∨ 384 * 2 ^ 30 < a + bs.length) : memWrite a bs m = m.hdmMiss.emit .cxlDone :=
  if_neg (Mach.not_decoded h)

theorem Mach.hostBlocked_canon (h : m.canon a = some c) : m.hostBlocked a = m.granuleSealed c := by simp [Mach.hostBlocked, h]

section
variable (hcommit : m.flag .UCIE_STAT_HDMCOMMIT = true)
include hcommit

/-- A read within one granule is that granule's. -/
theorem memRead_within (hpos : 0 < n) (hin : a % 256 + n ≤ 256) (hfits : a + n ≤ 384 * 2 ^ 30) : memRead a n m = m.readPart a n := by
  have hlen : min (a + n) (a / 256 * 256 + 256) - a = n := by omega
  simp only [memRead, if_pos (Mach.decoded_iff.mpr ⟨hcommit, hfits⟩), pieceStarts_within hpos hin, List.foldl_cons, List.foldl_nil, hlen]

theorem memWrite_within (hne : bs ≠ []) (hin : a % 256 + bs.length ≤ 256) (hfits : a + bs.length ≤ 384 * 2 ^ 30) : memWrite a bs m = m.writePart a bs := by
  simp only [memWrite, if_pos (Mach.decoded_iff.mpr ⟨hcommit, hfits⟩), pieces_within hne hin, List.foldl_cons, List.foldl_nil]

end

section
variable (hcanon : m.canon a = some c)
include hcanon

theorem Mach.readPart_sealed (h : m.granuleSealed c = true) : m.readPart a n = m.countDenied.poisonAnswer := if_pos ((Mach.hostBlocked_canon hcanon).trans h)

theorem Mach.readPart_open (h : m.granuleSealed c = false) : m.readPart a n = m.hostAccess ⟨true, a, n, none, 0, 0, false⟩ :=
  if_neg (Bool.eq_false_iff.mp ((Mach.hostBlocked_canon hcanon).trans h))

theorem Mach.writePart_sealed (h : m.granuleSealed c = true) : m.writePart a bs = m.countDenied.emit .cxlDone := if_pos ((Mach.hostBlocked_canon hcanon).trans h)

theorem Mach.writePart_open (h : m.granuleSealed c = false) : m.writePart a bs = m.hostAccess ⟨true, a, bs.length, some bs, 0, 0, false⟩ :=
  if_neg (Bool.eq_false_iff.mp ((Mach.hostBlocked_canon hcanon).trans h))

end

end

/-- Settles O43: an access outside the decoder's range, and one within a granule. -/
theorem hostMemoryAccesses : Obligations.HostMemoryAccesses := by
  intro s a n size ways bs hans miss
  refine ⟨?commit, fun hbad => ?refused, fun h => ?readOutside, fun h => ?writeOutside, fun c hcommit hcanon => ⟨fun hpos hin hfits => ?reads, fun hne hin hfits => ?writes⟩⟩
  case commit => exact State.does_requested hans (if_pos ⟨rfl, rfl⟩)
  case refused => exact State.does_requested hans (if_neg (not_and_or.mpr hbad))
  case readOutside => exact State.does_requested hans (memRead_outside h)
  case writeOutside => exact State.does_requested hans (memWrite_outside h)
  case reads =>
    have hpart := memRead_within hcommit hpos hin hfits
    exact ⟨fun h => State.does_requested hans (hpart.trans (Mach.readPart_sealed hcanon h)), fun h => State.does_requested hans (hpart.trans (Mach.readPart_open hcanon h))⟩
  case writes =>
    have hpart := memWrite_within hcommit hne hin hfits
    exact ⟨fun h => State.does_requested hans (hpart.trans (Mach.writePart_sealed hcanon h)), fun h => State.does_requested hans (hpart.trans (Mach.writePart_open hcanon h))⟩

/-! ## Sideband and mailboxes (R311, R312) -/

section
variable {m : Mach}

section
variable (hcold : m.resets.cold = false)
include hcold

theorem sidebandIdentity_answers : sidebandIdentity m = m.answer msgIdentity m.identityBody := if_neg (Bool.eq_false_iff.mp hcold)

theorem sidebandTemperature_converts : sidebandTemperature m = m.convert (List.range 24) .sideband := if_neg (Bool.eq_false_iff.mp hcold)

theorem mailboxWrite_refused {data : Bytes} (htwi : m.twilight = false) : mailboxWrite data m = m.answer msgMailbox [] :=
  (if_neg (Bool.eq_false_iff.mp hcold)).trans (if_neg (Bool.eq_false_iff.mp htwi))

theorem mailboxWrite_taken {data : Bytes} (htwi : m.twilight = true) :
    mailboxWrite data m = { m with trust := { m.trust with mailIn := m.trust.mailIn ++ [slice data 0 64] } } :=
  (if_neg (Bool.eq_false_iff.mp hcold)).trans (if_pos htwi)

theorem mailboxRead_nothing (h : m.twilight = false ∨ m.trust.mailOut = []) : mailboxRead m = m.answer msgMailbox [] := by
  refine (if_neg (Bool.eq_false_iff.mp hcold)).trans ?_
  rcases h with h | h
  · simp only [h]
  · cases hmode : m.twilight <;> simp only [h]

theorem mailboxRead_oldest {b : Bytes} {rest : List Bytes} (htwi : m.twilight = true) (h : m.trust.mailOut = b :: rest) :
    mailboxRead m = ({ m with trust := { m.trust with mailOut := rest } } : Mach).answer msgMailbox b :=
  (if_neg (Bool.eq_false_iff.mp hcold)).trans (by simp only [htwi, h])

end

/-! ## Modules of the host port (R309, R310) -/

theorem Mach.setMods_none (h : ∀ j < 4, m.rd .UCIE_MOD_STATE j ≠ 2) : m.setMods = (m.wr .UCIE_STAT_MODS 0).wr .UCIE_STAT_RATE 0 := by
  have hnone : (List.range 4).filter (fun k => m.rd .UCIE_MOD_STATE k == 2) = [] := by simpa [List.filter_eq_nil_iff] using h
  simp [Mach.setMods, hnone, carrying]

/-- The four modules carry traffic at 32 GT/s where all have trained and none is slow. -/
theorem Mach.setMods_all (h : ∀ j < 4, m.rd .UCIE_MOD_STATE j = 2) (hfast : m.ucieSlow = []) : m.setMods = (m.wr .UCIE_STAT_MODS 15).wr .UCIE_STAT_RATE 2 := by
  have hall : (List.range 4).filter (fun k => m.rd .UCIE_MOD_STATE k == 2) = List.range 4 := by simpa [List.filter_eq_self] using h
  have hslow : (List.range 4).any (fun k => nget (fun _ => false) m.ucieSlow k) = false := by rw [hfast]; decide
  simp only [Mach.setMods, hall, hslow, Bool.false_eq_true, if_false]
  rfl

/-- The block with a module trained at 32 GT/s. -/
def Mach.moduleTrained (m : Mach) (k r : Nat) : Mach := (m.wr .UCIE_MOD_STATE 2 k).wr .UCIE_MOD_REPAIRED r k

theorem Mach.state_moduleTrained (j k r : Nat) : (m.moduleTrained k r).rd .UCIE_MOD_STATE j = if j = k then 2 else m.rd .UCIE_MOD_STATE j := by
  by_cases h : j = k
  · subst h
    simp [Mach.moduleTrained]
    rfl
  · simp only [Mach.moduleTrained, Mach.rd_wr_other _ (.inr (.inl h)), if_neg h]

/-- The block with its four modules trained at 32 GT/s. -/
def Mach.allTrained (m : Mach) (r0 r1 r2 r3 : Nat) : Mach := { (((m.moduleTrained 0 r0).moduleTrained 1 r1).moduleTrained 2 r2).moduleTrained 3 r3 with ucieSlow := [] }

theorem Mach.state_allTrained {r0 r1 r2 r3 j : Nat} (hj : j < 4) : (m.allTrained r0 r1 r2 r3).rd .UCIE_MOD_STATE j = 2 := by
  change ((((m.moduleTrained 0 r0).moduleTrained 1 r1).moduleTrained 2 r2).moduleTrained 3 r3).rd .UCIE_MOD_STATE j = 2
  simp only [Mach.state_moduleTrained]
  interval_cases j <;> rfl

theorem ucieTrained_all {r0 r1 r2 r3 : Nat} {flit : Bool} (htwi : m.twilight = false) :
    ucieTrained [some (true, r0), some (true, r1), some (true, r2), some (true, r3)] flit m =
      (((m.allTrained r0 r1 r2 r3).wr .UCIE_STAT_MODS 15).wr .UCIE_STAT_RATE 2).wr .UCIE_STAT_FLIT (b2n flit) := by
  refine (if_neg (Bool.eq_false_iff.mp htwi)).trans ?_
  change (m.allTrained r0 r1 r2 r3).setMods.wr .UCIE_STAT_FLIT (b2n flit) = _
  rw [Mach.setMods_all (fun j hj => Mach.state_allTrained hj) rfl]

theorem linkLevelRetry_counts (h : m.hostUp = true) : linkLevelRetry m = (m.inc .UCIE_ERR_CRC).inc .UCIE_ERR_RETRY := if_pos h

end

/-- Settles O44: the messages by what they answer, the modules by what becomes of them. -/
theorem hostPortMessagesAndModules : Obligations.HostPortMessagesAndModules := by
  refine ⟨fun s op idx req => ⟨fun hans => ?messages, fun hcold => ?sideband⟩, fun s k flit ha hk => ?modules⟩
  case messages =>
    exact ⟨State.does_requested hans rfl, State.does_requested hans rfl, State.does_requested hans rfl, State.does_requested hans rfl, State.does_requested hans rfl,
      State.does_requested hans rfl, State.does_requested hans rfl⟩
  case sideband =>
    refine ⟨?_, ?_, fun htwi => ?_, fun htwi => ?_, fun h => ?_, fun b rest htwi h => ?_⟩
    · exact State.does_eq (sidebandIdentity_answers hcold)
    · exact State.does_eq (sidebandTemperature_converts hcold)
    · exact State.does_eq (mailboxWrite_refused hcold htwi)
    · exact State.does_eq (mailboxWrite_taken hcold htwi)
    · exact State.does_eq (mailboxRead_nothing hcold h)
    · exact State.does_eq (mailboxRead_oldest hcold htwi h)
  case modules =>
    refine ⟨?_, fun m h => Mach.setMods_none h, fun r0 r1 r2 r3 htwi => ?_, fun hup => ?_⟩
    · exact State.run_act_eq (by simp [hk]) ha rfl
    · exact State.does_act_eq ha (ucieTrained_all htwi)
    · exact State.does_act_eq ha (linkLevelRetry_counts hup)

end Sys2Proof.Machine
end

section
/-! PROOFS. The far-tier port: its enable and enumeration, and its accesses (R319 to R323). -/
namespace Sys2Proof.Machine

section
variable {m : Mach}

/-! ## The port (R18, R319, R320) -/

theorem farPortEnable_enables (hoff : m.flag .FARCXL_CTL_ENABLE = false) (hf : m.firmware = true) : farPortEnable 1 m =
    let k := ((m.wr .FARCXL_CTL_ENABLE 1).wr .FARCXL_STAT_STATE 1).startDom farDom
    (List.range k.farLinks).foldl (fun m e => (m.wr .FARCXL_EXP_STATE 1 e).emit (.pin (pinFarPerst e) true)) k :=
  (if_pos rfl).trans (if_neg (by simp [hoff, hf]))

theorem farPortEnable_absent (hf : m.firmware = false) : farPortEnable 1 m = m := (if_pos rfl).trans (if_pos (by simp [hf]))

theorem farPortEnable_enabled (hon : m.flag .FARCXL_CTL_ENABLE = true) : farPortEnable 1 m = m := (if_pos rfl).trans (if_pos (by simp [hon]))

/-- A port without accesses is disabled. -/
theorem farPortEnable_disables (hon : m.flag .FARCXL_CTL_ENABLE = true) (hops : m.farOps = []) : farPortEnable 0 m =
    let k := (((m.wr .FARCXL_CTL_ENABLE 0).wr .FARCXL_STAT_STATE 0).wr .FARCXL_STAT_GIB 0).stopDom farDom
    (List.range 4).foldl (fun m e =>
      let m := if e < m.farLinks then m.emit (.pin (pinFarPerst e) false) else m
      ((((m.wr .FARCXL_EXP_STATE 0 e).wr .FARCXL_EXP_WIDTH 0 e).wr .FARCXL_EXP_RATE 0 e).wr .FARCXL_EXP_GIB 0 e).wr .FARCXL_EXP_BASE 0 e) k :=
  (if_neg (by decide)).trans ((if_neg (by simp [hon])).trans (by rw [hops]; rfl))

theorem linkWidth_le (lanes : Nat) : linkWidth lanes ≤ 16 := by
  unfold linkWidth
  split
  · exact Nat.le_refl _
  · split <;> decide

section
variable (hone : m.rd .FARCXL_CTL_BIF = 0) {x : FarExpander}
include hone

theorem Mach.farLinks_one : m.farLinks = 1 := if_pos hone

/-- The width of the one link is the one at which it runs. -/
theorem Mach.farWidth_one (lanes : Nat) : min (linkWidth lanes) (16 / m.farLinks) = linkWidth lanes := by
  have hwide := linkWidth_le lanes
  rw [Mach.farLinks_one hone]
  omega

theorem Mach.farExpander_used (hpresent : x.present = true) (haccepted : x.accepted = true) (hfirst : m.rd .FARCXL_STAT_GIB = 0) : m.farExpander 0 x =
    (((((m.wr .FARCXL_EXP_WIDTH (linkWidth x.lanes) 0).wr .FARCXL_EXP_RATE (if x.fast then 2 else 1) 0).wr .FARCXL_EXP_STATE 2 0).wr .FARCXL_EXP_BASE 0 0).wr .FARCXL_EXP_GIB
      (min (x.bytes / 2 ^ 30) 4096) 0).wr .FARCXL_STAT_GIB (min (x.bytes / 2 ^ 30) 4096) := by
  simp [Mach.farExpander, hpresent, haccepted, Mach.farWidth_one hone, hfirst]

theorem Mach.farExpander_rejected (hpresent : x.present = true) (hrejected : x.accepted = false) : m.farExpander 0 x =
    (((m.wr .FARCXL_EXP_WIDTH (linkWidth x.lanes) 0).wr .FARCXL_EXP_RATE (if x.fast then 2 else 1) 0).wr .FARCXL_EXP_STATE 3 0).post ⟨0, 0, 0, 6, 0, fkFarReject⟩ := by
  simp [Mach.farExpander, hpresent, hrejected, Mach.farWidth_one hone]

/-- The enumeration of a port of one link is that of its one expander. -/
theorem farPortUp_one (hstate : m.rd .FARCXL_STAT_STATE = 1) : farPortUp [x] m =
    if (List.range 4).any (fun e => (m.farExpander 0 x).rd .FARCXL_EXP_STATE e == 2) then ((m.farExpander 0 x).wr .FARCXL_STAT_STATE 2).setDom farDom ⟨2, false, 0, 0⟩
    else (m.farExpander 0 x).wr .FARCXL_STAT_STATE 3 := by
  refine (if_pos hstate).trans ?_
  simp only [Mach.farLinks_one hone]
  rfl

theorem farPortUp_used (hstate : m.rd .FARCXL_STAT_STATE = 1) (hpresent : x.present = true) (haccepted : x.accepted = true) (hfirst : m.rd .FARCXL_STAT_GIB = 0) :
    farPortUp [x] m = ((m.farExpander 0 x).wr .FARCXL_STAT_STATE 2).setDom farDom ⟨2, false, 0, 0⟩ := by
  have hused : (m.farExpander 0 x).rd .FARCXL_EXP_STATE 0 = 2 := by
    rw [Mach.farExpander_used hone hpresent haccepted hfirst]
    simp
    rfl
  rw [farPortUp_one hone hstate, if_pos (by simpa using ⟨0, by decide, hused⟩)]

theorem farPortUp_fails (hstate : m.rd .FARCXL_STAT_STATE = 1) (hnone : ∀ e < 4, (m.farExpander 0 x).rd .FARCXL_EXP_STATE e ≠ 2) :
    farPortUp [x] m = (m.farExpander 0 x).wr .FARCXL_STAT_STATE 3 := by
  rw [farPortUp_one hone hstate, if_neg (by simpa using hnone)]

end

theorem farPortUp_idle {es : List FarExpander} (hstate : m.rd .FARCXL_STAT_STATE ≠ 1) : farPortUp es m = m := if_neg hstate

/-! ## Accesses (R322, R323) -/

section
variable {slot : Nat} {f : FarOp} (hf : m.farOldest slot = some f)
include hf

theorem farTimeout_fails : farTimeout slot m = (m.farLoss f).farFails f stFarDown := by simp only [farTimeout, hf]

theorem farComplete_fresh {poison : Bool} (hfresh : sealVersion (m.sealEntry slot) = 0) (hreads : f.reads = true) : farComplete slot poison m = m.farWorks f := by
  have hdone : (f.reads && sealVersion (m.sealEntry slot) == 0) = true := by simp [hreads, hfresh]
  simp only [farComplete, hf, hdone, if_true]

section
variable {x : Nat} (hx : m.farExp slot = some x) (hup : m.rd .FARCXL_EXP_STATE x = 2)
include hx hup

theorem farComplete_written {poison : Bool} (hreads : f.reads = false) : farComplete slot poison m = m.farWorks f := by
  have hhere : (m.rd .FARCXL_EXP_STATE x != 2) = false := by simp [hup]
  simp only [farComplete, hf, hx, hhere, hreads, Bool.false_and, Bool.false_eq_true, if_false]

section
variable (hwritten : sealVersion (m.sealEntry slot) ≠ 0) (hreads : f.reads = true)
include hwritten hreads

/-- A read of a written slot, from an expander that is up, turns on its poison and its check. -/
theorem farComplete_reads {poison : Bool} : farComplete slot poison m =
    if poison = true then ((m.inc .FARCXL_ERR_POISON).postFar f fkFarPoison).farFails f stUe
    else if m.farReadable f.part slot = false then ((m.inc .FARCXL_ERR_AUTH).postFar f fkFarAuth).farFails f stFarAuth
    else m.farWorks f := by
  have hhere : (m.rd .FARCXL_EXP_STATE x != 2) = false := by simp [hup]
  have hold : (sealVersion (m.sealEntry slot) == 0) = false := by simp [hwritten]
  simp only [farComplete, hf, hx, hhere, hold, hreads, Bool.true_and, Bool.false_eq_true, if_false, Bool.not_eq_true']

theorem farComplete_poison : farComplete slot true m = ((m.inc .FARCXL_ERR_POISON).postFar f fkFarPoison).farFails f stUe :=
  (farComplete_reads hf hx hup hwritten hreads).trans (if_pos rfl)

theorem farComplete_unreadable (hbad : m.farReadable f.part slot = false) :
    farComplete slot false m = ((m.inc .FARCXL_ERR_AUTH).postFar f fkFarAuth).farFails f stFarAuth :=
  (farComplete_reads hf hx hup hwritten hreads).trans ((if_neg Bool.false_ne_true).trans (if_pos hbad))

theorem farComplete_data (hgood : m.farReadable f.part slot = true) : farComplete slot false m = m.farWorks f :=
  (farComplete_reads hf hx hup hwritten hreads).trans ((if_neg Bool.false_ne_true).trans (if_neg (by simp [hgood])))

end

end

end

section
variable {e : Nat} {sent : List Nat}

theorem farLinkDown_unused (hstate : m.rd .FARCXL_EXP_STATE e ≠ 2) : farLinkDown e sent m = m := if_pos (by simpa using hstate)

theorem farLinkDown_idle (hstate : m.rd .FARCXL_EXP_STATE e = 2) (hops : ∀ f ∈ m.farOps, m.farExp f.slot ≠ some e) :
    farLinkDown e sent m = ((m.inc .FARCXL_ERR_TIMEOUT).post ⟨0, 0, 0, 6, e, fkFarDown⟩).wr .FARCXL_EXP_STATE 4 e := by
  have hnone : m.farOps.filter (fun f => m.farExp f.slot == some e) = [] := by simpa [List.filter_eq_nil_iff] using hops
  exact (if_neg (by simp [hstate])).trans (by simp only [hnone]; rfl)

end

end

/-- Settles O45: the port by its enable and its enumeration, an access by how it ends. -/
theorem farTierPort : Obligations.FarTierPort := by
  intro s who slot e he
  refine ⟨fun hserves => ⟨fun hoff hf => ?enables, fun hoff => ?absent, fun hon => ?enabled, fun hon hops => ?disables⟩,
    fun ha => ⟨fun hstate hone => ⟨fun x hpresent haccepted hfirst => ?used, fun x hpresent hrejected => ?rejected⟩, fun hstate es => ?idle, fun f hf => ?access,
      fun k => rfl, fun hstate sent => ?unused, fun hstate hops sent => ?down⟩⟩
  case enables => exact State.does_served hserves (farPortEnable_enables hoff hf)
  case absent => exact State.does_served (g := id) hserves (farPortEnable_absent hoff.2)
  case enabled => exact State.does_served (g := id) hserves (farPortEnable_enabled hon)
  case disables => exact State.does_served hserves (farPortEnable_disables hon hops)
  case used =>
    refine State.does_act_eq ha ((farPortUp_used hone hstate hpresent haccepted hfirst).trans ?_)
    rw [Mach.farExpander_used hone hpresent haccepted hfirst]
  case rejected =>
    intro k hnone
    have hk : s.m.farExpander 0 x = k := Mach.farExpander_rejected hone hpresent hrejected
    refine State.does_act_eq ha ((farPortUp_fails hone hstate (by rwa [hk])).trans ?_)
    rw [hk]
  case idle => exact State.does_act_fixed ha (farPortUp_idle hstate)
  case access =>
    refine ⟨State.does_act_eq ha (farTimeout_fails hf), fun hfresh hreads poison => State.does_act_eq ha (farComplete_fresh hf hfresh hreads), fun x hx hup => ?_⟩
    refine ⟨fun hreads poison => State.does_act_eq ha (farComplete_written hf hx hup hreads), fun hwritten hreads => ⟨?_, fun hbad => ?_, fun hgood => ?_⟩⟩
    · exact State.does_act_eq ha (farComplete_poison hf hx hup hwritten hreads)
    · exact State.does_act_eq ha (farComplete_unreadable hf hx hup hwritten hreads hbad)
    · exact State.does_act_eq ha (farComplete_data hf hx hup hwritten hreads hgood)
  case unused => exact State.run_act_fixed (by simp [he]) ha (farLinkDown_unused hstate)
  case down => exact State.run_act_eq (by simp [he]) ha (farLinkDown_idle hstate hops)

end Sys2Proof.Machine
end

section
/-! PROOFS. Fault acknowledgement and stop bits, lockstep and seam, checks and error injection (R18, R341 to R343, R346 to R355). -/
namespace Sys2Proof.Machine

/-! ## Stop bits (R348) -/

theorem bit_two_pow (p q : Nat) : bit (2 ^ p) q = decide (p = q) := by
  rw [← Nat.testBit_two_pow, Nat.testBit_eq_decide_div_mod_eq]
  rfl

/-- A fold whose every step leaves its start. -/
theorem foldl_unchanged {α β : Type} {f : β → α → β} {b : β} {l : List α} (h : ∀ x ∈ l, f b x = b) : l.foldl f b = b := by
  induction l with
  | nil => rfl
  | cons x l ih => rw [List.foldl_cons, h x List.mem_cons_self, ih (fun y hy => h y (List.mem_cons_of_mem x hy))]

section
variable {m : Mach} {mask p : Nat}

/-- What a write of FAULT_STOP does at one bit. -/
def Mach.stopClearBit (mask : Nat) (m : Mach) (p : Nat) : Mach :=
  if bit mask p && bit (m.rd .FAULT_STOP_STOPPED) p then (m.clrB .FAULT_STOP_STOPPED p).sendStop 4 (2 ^ p) else m

theorem Mach.stopClearBit_clears (hmask : bit mask p = true) (hstop : bit (m.rd .FAULT_STOP_STOPPED) p = true) :
    m.stopClearBit mask p = (m.clrB .FAULT_STOP_STOPPED p).sendStop 4 (2 ^ p) := if_pos (by simp [hmask, hstop])

theorem Mach.stopClearBit_unset (h : bit mask p = false) : m.stopClearBit mask p = m := if_neg (by simp [h])

theorem faultStopClear_none (h : ∀ q < 16, bit mask q = true → bit (m.rd .FAULT_STOP_STOPPED) q = false) : faultStopClear mask m = m := by
  refine foldl_unchanged (f := Mach.stopClearBit mask) fun q hq => ?_
  cases hmask : bit mask q with
  | false => exact Mach.stopClearBit_unset hmask
  | true => exact if_neg (by simp [h q (List.mem_range.mp hq) hmask])

/-- A write of one standing bit clears that one. -/
theorem faultStopClear_one (hp : p < 16) (hstop : bit (m.rd .FAULT_STOP_STOPPED) p = true) :
    faultStopClear (2 ^ p) m = (m.clrB .FAULT_STOP_STOPPED p).sendStop 4 (2 ^ p) := by
  have hsplit : List.range 16 = List.range p ++ p :: List.range' (p + 1) (15 - p) := by
    interval_cases p <;> rfl
  have hothers (k : Mach) {l : List Nat} (hl : p ∉ l) : l.foldl (Mach.stopClearBit (2 ^ p)) k = k := by
    refine foldl_unchanged fun q hq => Mach.stopClearBit_unset ?_
    rw [bit_two_pow]
    exact decide_eq_false fun h => hl (h ▸ hq)
  change (List.range 16).foldl (Mach.stopClearBit (2 ^ p)) m = _
  rw [hsplit, List.foldl_append, List.foldl_cons, hothers m (by simp), hothers _ (by simp),
    Mach.stopClearBit_clears (by rw [bit_two_pow]; exact decide_eq_true rfl) hstop]

/-! ## Lockstep of the management cores (R351) -/

variable {k : Nat}

theorem mcMismatch_stops (hlock : m.flag .FAULT_CFG_LOCKSTEP = true) (hruns : bit m.trust.mcStopped k = false) :
    mcMismatch k m = ({ m with trust := { m.trust with mcStopped := setBit m.trust.mcStopped k } } : Mach).post ⟨0, 0, 0, 7, 2 * k, fkLockstepMc⟩ :=
  if_pos (by simp [hlock, hruns])

theorem mcMismatch_ignored (h : m.flag .FAULT_CFG_LOCKSTEP = false ∨ bit m.trust.mcStopped k = true) : mcMismatch k m = m := by
  refine if_neg ?_
  rcases h with h | h <;> simp [h]

end

/-- Settles O46: each row by what it changes. -/
theorem faultsAreAnsweredAndHalt : Obligations.FaultsAreAnsweredAndHalt := by
  intro s who p k hp hk
  have hok : decide (k < 2) = true := by simp [hk]
  refine ⟨fun hserves => ?ack, fun hserves => ⟨fun mask h => ?stays, fun hstop => ?clears⟩, fun ha => ⟨?sequencers, ?seam, fun hlock hruns => ?stops, fun h => ?ignored⟩⟩
  case ack => exact State.run_served (by simp [hp]) hserves rfl
  case stays => exact State.does_served (g := id) hserves (faultStopClear_none h)
  case clears => exact State.does_served hserves (faultStopClear_one hp hstop)
  case sequencers => exact State.does_act_eq ha rfl
  case seam => exact State.run_act_eq hok ha rfl
  case stops => exact State.run_act_eq hok ha (mcMismatch_stops hlock hruns)
  case ignored => exact State.run_act_fixed hok ha (mcMismatch_ignored h)

/-! ## Checks and error injection (R18, R341 to R343, R355) -/

section
variable {m : Mach} {failed : List CheckerPart}

theorem Mach.selfCheckStart_running (h : m.flag .FAULT_SELF_BUSY = true) : m.selfCheckStart = m := if_pos h

theorem Mach.selfCheckStart_starts (h : m.flag .FAULT_SELF_BUSY = false) : m.selfCheckStart =
    ((List.range 16).filter m.resident).foldl (fun k p => (k.preempt p p).drainStart p)
      { m.wr .FAULT_SELF_BUSY 1 with selfCheck := some ⟨m.tick, (List.range 16).filter m.resident, false⟩ } := if_neg (Bool.eq_false_iff.mp h)

theorem injectArm_test {a y : Nat} (h : m.flag .RST_MODE_TEST = true) : injectArm a y m = ((m.wr .FAULT_INJ_ADDR a).wr .FAULT_INJ_SYMS y).wr .FAULT_INJ_ARM 1 := by
  simp [injectArm, h]

theorem injectArm_refused {a y : Nat} (h : m.flag .RST_MODE_TEST = false) : injectArm a y m = m.badAcc := by simp [injectArm, h]

theorem selfCheckDone_none (h : m.selfCheck = none) : selfCheckDone failed m = m := by simp only [selfCheckDone, h]

section
variable {c : SelfCheck} (hcheck : m.selfCheck = some c)
include hcheck

theorem selfCheckDone_undrained (h : m.selfDrained c = false) : selfCheckDone failed m = m := by
  simp only [selfCheckDone, hcheck, h, Bool.not_false, if_true]

variable (hdrained : m.selfDrained c = true)
include hdrained

/-- The block as a self-check that found nothing ends. -/
def Mach.checkPassed (m : Mach) (c : SelfCheck) : Mach :=
  (((m.wr .FAULT_SELF_BUSY 0).wr .FAULT_SELF_RESULT 1).wr .FAULT_SELF_LASTDUR ((m.tick - c.start) / 10)).switchBack c

/-- The block as a self-check with a failure ends. -/
def Mach.checkFailed (m : Mach) (c : SelfCheck) : Mach :=
  ((((m.wr .FAULT_SELF_BUSY 0).wr .FAULT_SELF_RESULT 2).wr .FAULT_SELF_LASTDUR ((m.tick - c.start) / 10)).post ⟨0, 0, 0, 7, 0, fkSelfcheck⟩).switchBack c

theorem selfCheckDone_passes (hsound : c.faulted = false) :
    selfCheckDone [] m = if (m.checkPassed c).flag .LINK_PAIR_ENABLE then (m.checkPassed c).pairResult .pass else m.checkPassed c := by
  have hok : (([] : List CheckerPart).isEmpty && !c.faulted) = true := by simp [hsound]
  simp only [selfCheckDone, hcheck, hdrained, hok, Bool.not_true, Bool.false_eq_true, if_false, if_true, List.foldl_nil, Mach.checkPassed]
  rfl

theorem selfCheckDone_fails (h : failed ≠ [] ∨ c.faulted = true) :
    selfCheckDone failed m = if (m.checkFailed c).flag .LINK_PAIR_ENABLE then (m.checkFailed c).pairResult .fail else failed.foldl Mach.checkerFails (m.checkFailed c) := by
  have hbad : (failed.isEmpty && !c.faulted) = false := by
    rcases h with h | h <;> simp [h]
  simp only [selfCheckDone, hcheck, hdrained, hbad, Bool.not_true, Bool.false_eq_true, if_false, Mach.checkFailed]
  rfl

end

end

/-- Settles O48: the start, the end and the parts of a check, and the injection. -/
theorem selfChecksAndInjection : Obligations.SelfChecksAndInjection := by
  intro s who failed a y hparts
  refine ⟨fun hserves => ⟨fun hf => ?absent, fun hf hbusy => ?running, fun hf hidle => ?starts⟩, fun hserves => ⟨fun htest => ?injects, fun htest => ?refused⟩,
    fun ha => ⟨fun hon => ?diag, fun hoff => ?diagOff, fun hnone => ?none, fun c hcheck => ⟨fun h => ?undrained, fun hdrained hnil hsound => ?passes, fun hdrained h => ?fails⟩⟩⟩
  case absent => exact State.does_served hserves (served_noFirmware _ hf)
  case running => exact State.does_served (g := id) hserves ((served_firmware _ hf).trans (Mach.selfCheckStart_running hbusy))
  case starts => exact State.does_served hserves ((served_firmware _ hf).trans (Mach.selfCheckStart_starts hidle))
  case injects => exact State.does_served hserves (injectArm_test htest)
  case refused => exact State.does_served hserves (injectArm_refused htest)
  case diag => exact State.run_act_eq hparts ha (if_pos hon)
  case diagOff => exact State.run_act_fixed hparts ha (if_neg (Bool.eq_false_iff.mp hoff))
  case none => exact State.run_act_fixed hparts ha (selfCheckDone_none hnone)
  case undrained => exact State.run_act_fixed hparts ha (selfCheckDone_undrained hcheck h)
  case passes =>
    subst hnil
    exact ⟨fun hoff => State.run_act_eq hparts ha ((selfCheckDone_passes hcheck hdrained hsound).trans (if_neg (Bool.eq_false_iff.mp hoff))),
      fun hon => State.run_act_eq hparts ha ((selfCheckDone_passes hcheck hdrained hsound).trans (if_pos hon))⟩
  case fails =>
    exact ⟨fun hoff => State.run_act_eq hparts ha ((selfCheckDone_fails hcheck hdrained h).trans (if_neg (Bool.eq_false_iff.mp hoff))),
      fun hon => State.run_act_eq hparts ha ((selfCheckDone_fails hcheck hdrained h).trans (if_pos hon))⟩

end Sys2Proof.Machine
end

section
/-! PROOFS. The security engine: the option store, SPDM and KEYAGREE, tenants (R360 to R371). -/
namespace Sys2Proof.Machine

/-! ## The option store (R360 to R362) -/

section
variable {m : Mach} {offset len : Nat}

/-- The block with the offset and length of an option-store write set. -/
def Mach.optSet (m : Mach) (offset len : Nat) : Mach := (m.wr .SEC_OPT_OFFSET offset).wr .SEC_OPT_LEN len

theorem optionGo_refused
    (h : (m.optSet offset len).flag .SEC_OPTST_BUSY = true ∨
      (m.optSet offset len).optWriteOk ((m.optSet offset len).rd .SEC_OPT_OFFSET) ((m.optSet offset len).rd .SEC_OPT_LEN) = false) :
    optionGo offset len m = (m.optSet offset len).badAcc := by
  refine if_pos ?_
  rcases h with h | h
  · rw [Bool.or_eq_true]
    exact .inl h
  · rw [Bool.or_eq_true]
    exact .inr (congrArg (!·) h)

theorem optionGo_takes {o n : Nat} (ho : (m.optSet offset len).rd .SEC_OPT_OFFSET = o) (hn : (m.optSet offset len).rd .SEC_OPT_LEN = n)
    (hidle : (m.optSet offset len).flag .SEC_OPTST_BUSY = false) (hfits : (m.optSet offset len).optWriteOk o n = true)
    (hue : (m.optSet offset len).readUe false ((m.optSet offset len).rd .SEC_OPT_SRC) n = false) :
    optionGo offset len m =
      let k := m.optSet offset len
      ({ (k.noteRead false (k.rd .SEC_OPT_SRC) n).wr .SEC_OPTST_BUSY 1 with
        trust := { k.trust with optWrite := some ⟨o, k.read false (k.rd .SEC_OPT_SRC) n⟩ } } : Mach).convert [0] .option := by
  subst ho hn
  have hfree : ¬((m.optSet offset len).flag .SEC_OPTST_BUSY ||
      !(m.optSet offset len).optWriteOk ((m.optSet offset len).rd .SEC_OPT_OFFSET) ((m.optSet offset len).rd .SEC_OPT_LEN)) = true := by
    rw [hidle, hfits]
    decide
  exact (if_neg hfree).trans (if_neg (Bool.eq_false_iff.mp hue))

variable {nv : NonVol} {w : OptWrite}

theorem NonVol.afterWrite_accepted (h : w.offset + w.data.length ≤ 0xF000 ∨ 0xF080 ≤ w.offset ∨ NonVol.ownerOk nv (nv.putOpt w.offset w.data) = true) :
    nv.afterWrite w = (nv.putOpt w.offset w.data, true) := by
  refine if_neg ?_
  rintro ⟨hbelow, habove, hbad⟩
  rcases h with h | h | h
  · omega
  · omega
  · simp [h] at hbad

theorem NonVol.afterWrite_refused (hbelow : w.offset < 0xF080) (habove : 0xF000 < w.offset + w.data.length)
    (hbad : NonVol.ownerOk nv (nv.putOpt w.offset w.data) = false) : nv.afterWrite w = (nv, false) :=
  if_pos ⟨hbelow, habove, congrArg (!·) hbad⟩

/-- The block with an option-store write over, its status not yet shown. -/
def Mach.optEnded (m : Mach) : Mach := { m.wr .SEC_OPTST_BUSY 0 with trust := { m.trust with optWrite := none } }

section
variable (hw : m.trust.optWrite = some w) (hconv : ∀ k ∈ m.power.convs, k.owner ≠ .option)
include hw hconv

theorem optionDone_ends : optionDone nv m = ((nv.afterWrite w).1,
    if (nv.afterWrite w).2 then m.optEnded.wr .SEC_OPTST_STATUS stOk else (m.optEnded.wr .SEC_OPTST_STATUS stAuthFail).postSec fkOwner) := by
  have hdone : m.optConverting = false := by simpa [Mach.optConverting] using hconv
  simp only [optionDone, hw, hdone, Bool.false_eq_true, if_false, Mach.optEnded]

theorem optionDone_accepted (h : w.offset + w.data.length ≤ 0xF000 ∨ 0xF080 ≤ w.offset ∨ NonVol.ownerOk nv (nv.putOpt w.offset w.data) = true) :
    optionDone nv m = (nv.putOpt w.offset w.data, m.optEnded.wr .SEC_OPTST_STATUS stOk) := by
  rw [optionDone_ends hw hconv, NonVol.afterWrite_accepted h]
  rfl

theorem optionDone_refused (hbelow : w.offset < 0xF080) (habove : 0xF000 < w.offset + w.data.length)
    (hbad : NonVol.ownerOk nv (nv.putOpt w.offset w.data) = false) :
    optionDone nv m = (nv, (m.optEnded.wr .SEC_OPTST_STATUS stAuthFail).postSec fkOwner) := by
  rw [optionDone_ends hw hconv, NonVol.afterWrite_refused hbelow habove hbad]
  rfl

end

theorem exec_optionStoreWriteDone {s : State} (ha : s.m.awake = true) :
    exec .optionStoreWriteDone s = .next { s with nv := (optionDone s.nv s.m).1, m := (optionDone s.nv s.m).2 } := if_pos ha

theorem optionLoad_late (h : m.hostUp = true ∨ m.firmware = true) : optionLoad nv m = m := if_pos (by simpa using h)

/-- The loader over a store without a valid image. -/
theorem optionLoad_invalid (hdown : m.hostUp = false) (hf : m.firmware = false) (hbad : nv.imageValid = false) : optionLoad nv m =
    let k : Mach := { (m.applyMaps nv).wr .GLOBAL_REV_OPTVALID 0 with trust := { (m.applyMaps nv).trust with optImage := [] } }
    if nv.owned then k.postSec fkOptSig else k := by
  refine (if_neg (by simp [hdown, hf])).trans ?_
  simp only [hbad, Bool.false_eq_true, if_false]
  rfl

end

/-- Settles O50: a write's start and end, and the loader without a valid image. -/
theorem optionStoreWritesAndLoads : Obligations.OptionStoreWritesAndLoads := by
  intro s who offset len
  refine ⟨fun hserves hoff hlen => ?go, fun ha w hw hconv => ?ends, fun ha => ⟨fun h => ?late, fun hdown hf hbad howned => ?owned, fun hdown hf hbad howned => ?unowned⟩⟩
  case go =>
    intro m o n a
    refine ⟨fun h => ?_, fun hidle hfits hue => ?_⟩
    · exact State.does_served hserves (optionGo_refused h)
    · exact State.does_served hserves (optionGo_takes rfl rfl hidle hfits hue)
  case ends =>
    intro m new
    refine ⟨fun h => ?_, fun hbelow habove hbad => ?_⟩
    · rw [exec_optionStoreWriteDone ha, optionDone_accepted hw hconv h]
      rfl
    · rw [exec_optionStoreWriteDone ha, optionDone_refused hw hconv hbelow habove hbad]
      rfl
  case late => exact State.does_act_fixed ha (optionLoad_late h)
  case owned => exact State.does_act_eq ha ((optionLoad_invalid hdown hf hbad).trans (if_pos howned))
  case unowned => exact State.does_act_eq ha ((optionLoad_invalid hdown hf hbad).trans (if_neg (Bool.eq_false_iff.mp howned)))

/-! ## SPDM and KEYAGREE over the sideband (R363, R364, R366) -/

section
variable {s : State} {req : Bytes} {k : KeyReq}

/-- The state once request n over the sideband is answered. -/
def State.spdmAnswered (s : State) (n : Nat) (req : Bytes) : State := s.onMach (fun m =>
  let body := Config.messageBody (0x10 + n) req (m.spdmReport s.nv .sideband n req)
  (m.setSpdm .sideband ((m.spdm .sideband).after n req body)).spdmAnswer .sideband body)

section
variable (ha : s.m.awake = true) (htwi : s.m.twilight = true)
include ha htwi

/-- Every SPDM request over the sideband is answered in Twilight. -/
theorem State.run_spdm (n : Nat) :
    State.run (transportOk .sideband) (act (spdmRequest s.nv n .sideband req)) s = .next (s.spdmAnswered n req) :=
  State.run_act_eq rfl ha (if_pos htwi)

end

/-- The shared secret of a KEYAGREE exchange. -/
def Mach.keyShared (m : Mach) (k : KeyReq) : Bytes := Config.x25519 (Config.random m.fresh) (slice k.pub 0 32)

/-- The block's own public key in the exchange. -/
def Mach.keyOwn (m : Mach) : Bytes := Config.x25519 (Config.random m.fresh) (9 :: List.replicate 31 0)

/-- The key that the exchange derives. -/
def Mach.keyDerived (m : Mach) (k : KeyReq) : Bytes :=
  slice (Config.sha512 (keyLabel ++ toBytes 1 k.purpose ++ toBytes 1 k.part ++ m.keyShared k ++ slice k.pub 0 32 ++ m.keyOwn)) 0 32

/-- The block with the seed of an exchange drawn. -/
def Mach.keyDrawn (m : Mach) : Mach := { m with fresh := m.fresh + 1 }

section
variable {m : Mach} (htwi : m.twilight = true)
include htwi

theorem keyAgree_sound (h : m.keyDrawn.keyReqOk k (m.keyShared k) = true) : keyAgree .sideband k m =
    (m.keyDrawn.loadKey k (m.keyDerived k)).spdmAnswer .sideband
      (m.keyOwn ++ Config.edSign identitySeed (Config.sha512 (KeyReq.bytes k ++ m.keyOwn ++ Config.sha512 (m.keyDrawn.spdm .sideband).lastMeas))) :=
  (if_pos htwi).trans (if_pos h)

theorem keyAgree_unsound (h : m.keyDrawn.keyReqOk k (m.keyShared k) = false) : keyAgree .sideband k m = (m.keyDrawn.postSec fkKeyAgree).spdmAnswer .sideband [] :=
  (if_pos htwi).trans (if_neg (Bool.eq_false_iff.mp h))

end

end

/-- Settles O51: the eleven requests by their number, and KEYAGREE by whether its request is sound. -/
theorem secureMessagesAreAnswered : Obligations.SecureMessagesAreAnswered := by
  intro s req k ha htwi t done
  refine ⟨State.run_spdm ha htwi 0, State.run_spdm ha htwi 1, State.run_spdm ha htwi 2, State.run_spdm ha htwi 3, State.run_spdm ha htwi 4,
    State.run_spdm ha htwi 5, State.run_spdm ha htwi 6, State.run_spdm ha htwi 7, State.run_spdm ha htwi 8, State.run_spdm ha htwi 9,
    State.run_spdm ha htwi 10, ?keyagree⟩
  case keyagree =>
    intro seed m shared own key
    exact ⟨fun h => State.run_act_eq rfl ha (keyAgree_sound htwi h), fun h => State.run_act_eq rfl ha (keyAgree_unsound htwi h)⟩

/-! ## Tenants (R365, R368, R371) -/

section
variable {m : Mach} {p len : Nat}

section
variable (hidle : m.flag .SEC_TENANT_WMEASCTL_BUSY p = false)
include hidle

theorem measureGo_starts (h : ∀ x ∈ m.measured p, m.grantedTo p false (x.1 + x.2) 256 x.1 = true) :
    measureGo p m = (m.wr .SEC_TENANT_WMEASCTL_BUSY 1 p).wr .SEC_TENANT_WMEASCTL_LEAVES 0 p :=
  (if_neg (Bool.eq_false_iff.mp hidle)).trans (if_pos (List.all_eq_true.mpr h))

theorem measureGo_noRight {x : Nat × Nat} (hx : x ∈ m.measured p) (h : m.grantedTo p false (x.1 + x.2) 256 x.1 = false) :
    measureGo p m = m.wr .SEC_TENANT_WMEASCTL_STATUS stDescRights p :=
  (if_neg (Bool.eq_false_iff.mp hidle)).trans (if_neg fun hall => Bool.eq_false_iff.mp h (List.all_eq_true.mp hall x hx))

end

section
variable (hbusy : m.flag .SEC_TENANT_WMEASCTL_BUSY p = true)
include hbusy

theorem measureDone_ue {x : Nat × Nat} (hx : x ∈ m.measured p) (h : (m.wr .SEC_TENANT_WMEASCTL_BUSY 0 p).readUe false x.1 x.2 = true) :
    measureDone p m = ((m.measured p).foldl (fun m x => m.noteRead false x.1 x.2) (m.wr .SEC_TENANT_WMEASCTL_BUSY 0 p)).wr .SEC_TENANT_WMEASCTL_STATUS stUe p :=
  (if_neg (by simp [hbusy])).trans (if_pos (List.any_eq_true.mpr ⟨x, hx, h⟩))

theorem measureDone_digest (h : ∀ x ∈ m.measured p, (m.wr .SEC_TENANT_WMEASCTL_BUSY 0 p).readUe false x.1 x.2 = false) : measureDone p m =
    let rs := m.measured p
    let m := m.wr .SEC_TENANT_WMEASCTL_BUSY 0 p
    let k := rs.foldl (fun m x => m.noteRead false x.1 x.2) m
    let d := (k.wr .SEC_TENANT_WMEASCTL_STATUS stOk p).wr .SEC_TENANT_WMEASCTL_LEAVES (rs.foldl (fun s x => s + leavesOf x.2) 0) p
    let digest := Config.sha512 ((rs.map (fun x => toBytes 8 x.1 ++ toBytes 8 x.2 ++ m.rangeRoot x.1 x.2)).flatten)
    { d with trust := { d.trust with wmeas := nset (fun _ => []) d.trust.wmeas p digest } } := by
  refine (if_neg (by simp [hbusy])).trans (if_neg fun hany => ?_)
  obtain ⟨x, hx, hue⟩ := List.any_eq_true.mp hany
  exact Bool.eq_false_iff.mp (h x hx) hue

end

theorem partitionSeal_zero : partitionSeal 0 m = m := if_pos rfl

theorem partitionSeal_seals (hp : p ≠ 0) (htest : m.flag .RST_MODE_TEST = false) : partitionSeal p m = m.wr .SEC_TENANT_CTL_SEALED 1 p :=
  (if_neg hp).trans (if_neg (Bool.eq_false_iff.mp htest))

theorem partitionSeal_refused (hp : p ≠ 0) (htest : m.flag .RST_MODE_TEST = true) : partitionSeal p m = m.badAcc := (if_neg hp).trans (if_pos htest)

/-- The block with the length of an IMPORT set. -/
def Mach.importSet (m : Mach) (p len : Nat) : Mach := m.wr .SEC_TENANT_IMPORT_LEN len p

/-- The rights of an IMPORT hold. -/
def Mach.importOk (m : Mach) (p : Nat) : Bool :=
  let n := m.rd .SEC_TENANT_IMPORT_LEN p
  let dst := m.rd .SEC_TENANT_IMPORT_DST p
  m.grantedTo p true (dst + n) 256 dst && m.importSrcOk (m.rd .SEC_TENANT_IMPORT_SRC p) (n + 16 * ceilDiv n chunkLen)

section
variable (hidle : (m.importSet p len).flag .SEC_TENANT_IMPORTST_BUSY p = false)
include hidle

theorem importGo_noKey (hkey : m.key 4 p = []) : importGo p len m = (m.importSet p len).wr .SEC_TENANT_IMPORTST_STATUS stKeyAbsent p :=
  (if_neg (Bool.eq_false_iff.mp hidle)).trans (if_pos (List.isEmpty_iff.mpr hkey))

theorem importGo_noRight (hkey : m.key 4 p ≠ []) (hright : (m.importSet p len).importOk p = false) :
    importGo p len m = (m.importSet p len).wr .SEC_TENANT_IMPORTST_STATUS stDescRights p :=
  (if_neg (Bool.eq_false_iff.mp hidle)).trans ((if_neg (fun h => hkey (List.isEmpty_iff.mp h))).trans (if_pos (congrArg (!·) hright)))

theorem importGo_starts (hkey : m.key 4 p ≠ []) (hright : (m.importSet p len).importOk p = true) :
    importGo p len m = ((m.importSet p len).wr .SEC_TENANT_IMPORTST_BUSY 1 p).wr .SEC_TENANT_IMPORTST_CHUNKS 0 p :=
  (if_neg (Bool.eq_false_iff.mp hidle)).trans ((if_neg (fun h => hkey (List.isEmpty_iff.mp h))).trans
    (if_neg (Bool.eq_false_iff.mp ((congrArg (!·) hright).trans rfl))))

end

section
variable (hbusy : m.flag .SEC_TENANT_IMPORTST_BUSY p = true)
include hbusy

/-- The block with an IMPORT's chunks done and counted. -/
def Mach.importCounted (m : Mach) (p : Nat) : Mach :=
  ((m.importAll p).1.wr .SEC_TENANT_IMPORTST_BUSY 0 p).wr .SEC_TENANT_IMPORTST_CHUNKS (m.importAll p).2.1 p

theorem importDone_written (h : (m.importAll p).2.2 = false) : importDone p m = (m.importCounted p).wr .SEC_TENANT_IMPORTST_STATUS stOk p :=
  (if_neg (by simp [hbusy])).trans (if_neg (Bool.eq_false_iff.mp h))

theorem importDone_failed (h : (m.importAll p).2.2 = true) :
    importDone p m = ((m.importCounted p).wr .SEC_TENANT_IMPORTST_STATUS stAuthFail p).postSec fkImportAuth := (if_neg (by simp [hbusy])).trans (if_pos h)

end

end

/-- Settles O52: measurement, seal and IMPORT by their branches. -/
theorem tenantsMeasureSealAndImport : Obligations.TenantsMeasureSealAndImport := by
  intro s who p len hp
  have hok : decide (p < 16) = true := by simp [hp]
  refine ⟨fun hserves hidle => ⟨fun h => ?measures, fun x hx h => ?noRight⟩, fun ha hbusy => ?measured, fun hserves => ⟨fun h0 => ?zero, fun h0 htest => ?seals, fun h0 htest => ?test⟩,
    fun hserves hidle hlen => ?imports, fun ha hbusy => ?imported⟩
  case measures => exact State.run_served hok hserves (measureGo_starts hidle h)
  case noRight => exact State.run_served hok hserves (measureGo_noRight hidle hx h)
  case measured =>
    intro rs m k
    exact ⟨fun x hx h => State.run_act_eq hok ha (measureDone_ue hbusy hx h), fun h => State.run_act_eq hok ha (measureDone_digest hbusy h)⟩
  case zero =>
    subst h0
    exact State.run_served (g := id) hok hserves partitionSeal_zero
  case seals => exact State.run_served hok hserves (partitionSeal_seals h0 htest)
  case test => exact State.run_served hok hserves (partitionSeal_refused h0 htest)
  case imports =>
    intro m n dst ok
    have hidle' : m.flag .SEC_TENANT_IMPORTST_BUSY p = false := by simpa [Mach.flag, m] using hidle
    refine ⟨fun hkey => ?_, fun hkey hright => ?_, fun hkey hright => ?_⟩
    · exact State.run_served hok hserves (importGo_noKey hidle' hkey)
    · exact State.run_served hok hserves (importGo_noRight hidle' hkey hright)
    · exact State.run_served hok hserves (importGo_starts hidle' hkey hright)
  case imported =>
    intro r m
    exact ⟨fun h => State.run_act_eq hok ha (importDone_written hbusy h), fun h => State.run_act_eq hok ha (importDone_failed hbusy h)⟩

end Sys2Proof.Machine
end

section
/-! PROOFS. Dawn, conversions, the power guard, and the trips (R379 to R393). -/
namespace Sys2Proof.Machine

/-! ## Dawn (R379, R381, R383, R384) -/

section
variable {m : Mach} {tag : Verdict}

section
variable {t : Nat} (hdawn : m.power.dawnAt = some t)
include hdawn

theorem dawnReady_next (h : m.rd .PWR_STATE_DAWNSTAGE = 1 ∨ m.rd .PWR_STATE_DAWNSTAGE = 2) :
    dawnReady tag m = (m.wr .PWR_STATE_DAWNSTAGE (m.rd .PWR_STATE_DAWNSTAGE + 1)).stageBegins := by
  rcases h with h | h <;> simp [dawnReady, Mach.dawnStage, hdawn, h]

theorem dawnReady_memory (h : m.rd .PWR_STATE_DAWNSTAGE = 3) : dawnReady tag m = (m.dawnMemory.wr .PWR_STATE_DAWNSTAGE 4).stageBegins := by
  simp [dawnReady, Mach.dawnStage, hdawn, h]

/-- The block once the logic stage has ended Dawn's stages. -/
def Mach.stagesOver (m : Mach) (t : Nat) : Mach := (m.dawnLogic.wr .PWR_STATE_DAWNSTAGE 0).wr .PWR_EXIT_LASTUS ((m.tick - t) / 10)

theorem dawnReady_logic (h : m.rd .PWR_STATE_DAWNSTAGE = 4) (hcur : m.rd .PWR_STATE_CUR ≠ 3) : dawnReady tag m = m.stagesOver t := by
  simp [dawnReady, Mach.dawnStage, hdawn, h, hcur, Mach.stagesOver]

theorem dawnReady_logicMidnight (h : m.rd .PWR_STATE_DAWNSTAGE = 4) (hcur : m.rd .PWR_STATE_CUR = 3) :
    dawnReady .pass m = (m.stagesOver t).resumeCopy (m.power.acceptedAt * 100) := by
  simp [dawnReady, Mach.dawnStage, hdawn, h, hcur, Mach.stagesOver]

theorem dawnReady_saveFails (h : m.rd .PWR_STATE_DAWNSTAGE = 4) (hcur : m.rd .PWR_STATE_CUR = 3) :
    dawnReady .fail m = (m.post ⟨0, 0, 0, 9, 0, fkDawnStage⟩).warmAssert .save := by
  simp [dawnReady, Mach.dawnStage, hdawn, h, hcur]

end

theorem dawnReady_noStage (h : m.power.dawnAt = none ∨ m.rd .PWR_STATE_DAWNSTAGE = 0) : dawnReady tag m = m := by
  rcases h with h | h <;> simp [dawnReady, Mach.dawnStage, h]

section
variable {t : Nat} (hdawn : m.power.dawnAt = some t)
include hdawn

theorem Mach.stageOver_iff : m.stageOver = true ↔
    m.rd .PWR_STATE_DAWNSTAGE ≠ 0 ∧ m.power.stageAt + stageLimit (m.rd .PWR_STATE_CUR) (m.rd .PWR_STATE_DAWNSTAGE) ≤ m.tick := by
  simp [Mach.stageOver, hdawn]

theorem Mach.dayDue_iff : m.dayDue = true ↔ m.rd .PWR_STATE_DAWNSTAGE = 0 ∧ t + exitTicks (m.rd .PWR_STATE_CUR) ≤ m.tick := by
  simp [Mach.dayDue, hdawn, and_comm]

end

theorem dawnTimeout_retries (hover : m.stageOver = true) (hfirst : m.power.dawnFails = 0) : dawnTimeout m =
    let k := (m.post ⟨0, 0, 0, 9, 0, fkDawnStage⟩).wr .PWR_STATE_DAWNSTAGE 1
    { k with power := { k.power with dawnFails := 1, stageAt := k.tick } } := (if_pos hover).trans (if_pos hfirst)

theorem dawnTimeout_halts (hover : m.stageOver = true) (hagain : m.power.dawnFails ≠ 0) : dawnTimeout m = (m.haltWith 9 0 fkDawnStage).stopMove :=
  (if_pos hover).trans (if_neg hagain)

theorem dawnTimeout_early (h : ¬m.stageOver = true) : dawnTimeout m = m := if_neg h

variable {nv : NonVol}

theorem dayRow_due (h : m.dayDue = true) :
    dayRow nv m = m.power.hostHeld.foldl (fun m i => hostRow nv i m) { m.reportDay with power := { m.reportDay.power with hostHeld := [] } } := if_pos h

theorem dayRow_early (h : ¬m.dayDue = true) : dayRow nv m = m := if_neg h

theorem Mach.not_dayDue_of_noDawn (h : m.power.dawnAt = none) : ¬m.dayDue = true := by simp [Mach.dayDue, h]

theorem Mach.not_stageOver_of_noDawn (h : m.power.dawnAt = none) : ¬m.stageOver = true := by simp [Mach.stageOver, h]

end

/-- Settles O54: Dawn by its stage, its time-out by the count of tries, Day by its time. -/
theorem dawnRunsItsStages : Obligations.DawnRunsItsStages := by
  intro s tag ha
  refine ⟨fun t hdawn => ?dawn, fun hnone => ⟨?_, ?_, ?_⟩⟩
  case dawn =>
    intro stage begins limit exitTime
    refine ⟨fun h => ?next, fun h => ?memory, fun h hcur => ?logic, fun h hcur => ?logicMidnight, fun h => ?noStage, fun h hcur => ?saveFails, fun h hover hfirst => ?retries,
      fun h hover hagain => ?halts, fun h => ?onTime, fun h hdue => ?day, fun h => ?notYet⟩
    case next => exact State.does_act_eq ha (dawnReady_next hdawn h)
    case memory => exact State.does_act_eq ha (dawnReady_memory hdawn h)
    case logic => exact State.does_act_eq ha (dawnReady_logic hdawn h hcur)
    case logicMidnight => exact State.does_act_eq ha (dawnReady_logicMidnight hdawn h hcur)
    case noStage => exact State.does_act_fixed ha (dawnReady_noStage (.inr h))
    case saveFails => exact State.does_act_eq ha (dawnReady_saveFails hdawn h hcur)
    case retries => exact State.does_act_eq ha (dawnTimeout_retries ((Mach.stageOver_iff hdawn).mpr ⟨h, hover⟩) hfirst)
    case halts => exact State.does_act_eq ha (dawnTimeout_halts ((Mach.stageOver_iff hdawn).mpr ⟨h, hover⟩) hagain)
    case onTime =>
      refine State.does_act_fixed ha (dawnTimeout_early fun hover => ?_)
      obtain ⟨hstage, htime⟩ := (Mach.stageOver_iff hdawn).mp hover
      exact h.elim hstage (Nat.not_lt.mpr htime)
    case day => exact State.does_act_eq ha (dayRow_due ((Mach.dayDue_iff hdawn).mpr ⟨h, hdue⟩))
    case notYet =>
      refine State.does_act_fixed ha (dayRow_early fun hdue => ?_)
      obtain ⟨hstage, htime⟩ := (Mach.dayDue_iff hdawn).mp hdue
      exact h.elim (fun hne => hne hstage) (Nat.not_lt.mpr htime)
  · exact State.does_act_fixed ha (dawnReady_noStage (.inl hnone))
  · exact State.does_act_fixed ha (dawnTimeout_early (Mach.not_stageOver_of_noDawn hnone))
  · exact State.does_act_fixed ha (dayRow_early (Mach.not_dayDue_of_noDawn hnone))

/-! ## Conversions (R386, R387) -/

section
variable {m : Mach} {r : List Int}

theorem conversionDone_early (h : ∀ k ∈ m.power.convs, k.owner ≠ .sideband ∧ m.tick < k.start + 400) : conversionDone r m = m := by
  have hnone : m.power.convs.find? (fun k => k.over m.tick) = none := by
    rw [List.find?_eq_none]
    intro k hk
    obtain ⟨howner, htime⟩ := h k hk
    simp [Conv.over, howner, htime]
  simp only [conversionDone, hnone]

theorem conversionDone_now {z at' : Nat} {who : Requester} (hconv : m.power.convs = [⟨[z], .now z who, at'⟩]) (hover : at' + 400 ≤ m.tick) : conversionDone r m =
    let k := ({ m with power := { m.power with convs := [] } } : Mach).takeZone r z
    k.emit (.regRead (0x00A00100 + z * 8) 64 (k.zoneWord z)) := by
  have hover' : (Conv.mk [z] (.now z who) at').over m.tick = true := by simp [Conv.over, hover]
  simp only [conversionDone, hconv, List.find?_cons, hover', List.erase_cons_head, List.foldl_cons, List.foldl_nil]

/-! ## The power guard (R391) -/

variable {watts : Nat}

section
variable (hoff : m.flag .PWR_GUARD_ACTIVE = false)
include hoff

theorem guardSample_arms (hover : max (m.rd .PWR_GUARD_LIMIT) (m.rd .PWR_GUARD_RELEASE) < watts) : guardSample watts m =
    let k := ((m.wr .PWR_GUARD_ACTIVE 1).inc .PWR_GUARD_COUNT).post ⟨0, 0, 0, 9, 0, fkPguard⟩
    let k := (List.range 16).foldl (fun m p => m.setCauses p causePguard) k
    ({ k with power := { k.power with belowFrom := none } } : Mach).takeOutWhere causePguard (fun c => c.result.isNone) :=
  (if_pos (by simp [hoff])).trans (if_pos hover)

theorem guardSample_within (hunder : watts ≤ max (m.rd .PWR_GUARD_LIMIT) (m.rd .PWR_GUARD_RELEASE)) : guardSample watts m = m :=
  (if_pos (by simp [hoff])).trans (if_neg (Nat.not_lt.mpr hunder))

end

section
variable (hon : m.flag .PWR_GUARD_ACTIVE = true)
include hon

theorem guardSample_above (habove : m.rd .PWR_GUARD_RELEASE ≤ watts) : guardSample watts m = { m with power := { m.power with belowFrom := none } } :=
  (if_neg (by simp [hon])).trans (if_neg (Nat.not_lt.mpr habove))

variable (hbelow : watts < m.rd .PWR_GUARD_RELEASE)
include hbelow

theorem guardSample_firstBelow (hfirst : m.power.belowFrom = none) : guardSample watts m = { m with power := { m.power with belowFrom := some m.time.ns } } :=
  (if_neg (by simp [hon])).trans ((if_pos hbelow).trans (by simp only [hfirst]))

theorem guardSample_stillBelow {t : Nat} (hfrom : m.power.belowFrom = some t) (hearly : m.time.ns < t + 100000) : guardSample watts m = m :=
  (if_neg (by simp [hon])).trans ((if_pos hbelow).trans (by simp only [hfrom, if_neg (Nat.not_le.mpr hearly)]))

theorem guardSample_disarms {t : Nat} (hfrom : m.power.belowFrom = some t) (hlong : t + 100000 ≤ m.time.ns) : guardSample watts m = m.guardRelease :=
  (if_neg (by simp [hon])).trans ((if_pos hbelow).trans (by simp only [hfrom, if_pos hlong]))

end

end

/-- A command that power alone holds back. -/
theorem State.does_powered {s : State} {f g : Mach → Mach} (hcold : s.m.resets.cold = false) (h : f s.m = g s.m) : State.does (powered f) s = .next (s.onMach g) :=
  State.does_eq ((if_neg (by simp [hcold])).trans h)

/-- Settles O55: a conversion by its time, a sample by the guard's state. -/
theorem conversionsAndThePowerGuard : Obligations.ConversionsAndThePowerGuard := by
  intro s who z watts r hz
  refine ⟨fun hans => ?now, fun hcold => ⟨fun h => ?early, fun at' hconv hover => ?converted⟩,
    fun ha => ⟨fun hoff hover => ?arms, fun hoff hunder => ?within, fun hon habove => ?above, fun hon hbelow => ⟨fun hfirst => ?first, fun t hfrom hearly => ?still,
      fun t hfrom hlong => ?disarms⟩⟩⟩
  case now => exact State.run_answered (by simp [hz]) hans rfl
  case early => exact State.does_powered (g := id) hcold (conversionDone_early h)
  case converted => exact State.does_powered hcold (conversionDone_now hconv hover)
  case arms => exact State.does_act_eq ha (guardSample_arms hoff hover)
  case within => exact State.does_act_fixed ha (guardSample_within hoff hunder)
  case above => exact State.does_act_eq ha (guardSample_above hon habove)
  case first => exact State.does_act_eq ha (guardSample_firstBelow hon hbelow hfirst)
  case still => exact State.does_act_fixed ha (guardSample_stillBelow hon hbelow hfrom hearly)
  case disarms => exact State.does_act_eq ha (guardSample_disarms hon hbelow hfrom hlong)

/-! ## Trips, rails and PLLs (R389, R392, R393) -/

section
variable {m : Mach} {n d k : Nat}

theorem dramTrip_still (h : m.flag .PWR_STATE_MOVING = false) :
    dramTrip n m = ((m.setB .THERM_TRIP_DRAM n).emit (.pin pinThermtrip false)).fenceStack n 9 (2 + n) fkTripDram := if_neg (Bool.eq_false_iff.mp h)

theorem dramTrip_moving (h : m.flag .PWR_STATE_MOVING = true) :
    dramTrip n m = (((m.setB .THERM_TRIP_DRAM n).emit (.pin pinThermtrip false)).fenceStack n 9 (2 + n) fkTripDram).stopMove.reactHalt := if_pos h

theorem railFail_halts (h : m.rd .PWR_STATE_CUR ≠ 3) : railFail k m = m.haltWith 9 (if k = 1 then 1 else 0) fkRail := if_neg h

theorem railFail_midnight (h : m.rd .PWR_STATE_CUR = 3) : railFail k m = m := if_pos h

theorem pllLoss_halts (h : m.rd .PWR_STATE_CUR ≠ 3) : pllLoss d m = m.haltWith 9 d fkPll := if_neg h

theorem pllLoss_midnight (h : m.rd .PWR_STATE_CUR = 3) : pllLoss d m = m := if_pos h

end

/-- Settles O56: each trip by the state it meets. -/
theorem tripsHaltOrFence : Obligations.TripsHaltOrFence := by
  intro s d n k hd hn hk
  have hdie : decide (d < 2) = true := by simp [hd]
  have hstack : decide (n < 12) = true := by simp [hn]
  have hrail : decide (k < 6) = true := by simp [hk]
  refine ⟨fun hcold => ⟨State.run_powered hdie hcold rfl, ?dram⟩, fun ha => ⟨fun hcur => ⟨?rail, ?pll⟩, fun hcur => ⟨?railOff, ?pllOff⟩⟩⟩
  case dram =>
    intro fenced
    exact ⟨fun h => State.run_powered hstack hcold (dramTrip_still h), fun h => State.run_powered hstack hcold (dramTrip_moving h)⟩
  case rail => exact State.run_act_eq hrail ha (railFail_halts hcur)
  case pll => exact State.run_act_eq hdie ha (pllLoss_halts hcur)
  case railOff => exact State.run_act_fixed hrail ha (railFail_midnight hcur)
  case pllOff => exact State.run_act_fixed hdie ha (pllLoss_midnight hcur)

end Sys2Proof.Machine
end
